-- ==== Sys2Proof/Word.lean ====
section
/-! DEFINITION. The word types of the block: 64-bit registers and addresses, bytes, 256-bit elements. -/

namespace Sys2Proof

/-- A 64-bit register, limb or data address (R7: LIMB_W, REG_W, ADDR_W). Addition and subtraction wrap
modulo 2^64, which is `u64` of R9. -/
abbrev Word := BitVec 64

/-- One byte of data memory (R70). -/
abbrev Byte := BitVec 8

/-- A 256-bit value: a field element in memory (R11, R72) or a MUL operand (R39, R40). -/
abbrev Elem := BitVec 256

end Sys2Proof
end

