-- ==== Sys2Proof/Syntax.lean ====
section
/-! DEFINITION. The command set: the two commands of the block, and the fields of a command word. -/

namespace Sys2Proof

/-- The commands of `spec/opcode_table.json`. Neither has an operand in its word: operands are taken from
registers (R102). -/
inductive Instr where
  /-- MUL: Montgomery multiplication of X and Y into RES (R143). -/
  | mul
  /-- NTT_LAYER: one radix-2 butterfly layer over data memory (R170). -/
  | nttLayer
deriving DecidableEq, Repr

/-- A command word in format CMDW (R100): OPC = bits 7:0, RSVD = bits 63:8. -/
structure CmdWord where
  opc : BitVec 8
  rsvd : BitVec 56
deriving DecidableEq, Repr

end Sys2Proof
end

