-- ==== Sys2Proof/WellFormed.lean ====
section
/-! DEFINITION. Which command words and which commands are well formed. -/

namespace Sys2Proof.WellFormed

/-- Check 1 of a command word: the reserved field is 0 (R100, R105). -/
def rsvdZero (c : CmdWord) : Bool := c.rsvd == 0

/-- Check 2 of a command word: the opcode is one of the two of the opcode map (R103). -/
def opcInMap (c : CmdWord) : Bool := c.opc == 0x01 || c.opc == 0x02

/-- A command word is valid exactly when both checks hold (R104). -/
def cmdWord (c : CmdWord) : Bool := rsvdZero c && opcInMap c

/-- The fields of a command, as the opcode map gives them (R103). -/
def fields : Instr → CmdWord
  | .mul => { opc := 0x01, rsvd := 0 }
  | .nttLayer => { opc := 0x02, rsvd := 0 }

/-- A command is well formed when its word is. A command has no operand field, so each one is. -/
def instr (i : Instr) : Bool := cmdWord (fields i)

end Sys2Proof.WellFormed
end

