-- ==== Sys2Proof/Decode.lean ====
section
/-! DEFINITION. Decoding a 64-bit command word (R100 to R106), total, rejecting by name; and the encoder. -/

namespace Sys2Proof

/-- Why a word is an illegal command (R105). -/
inductive DecodeError where
  /-- RSVD, bits 63:8, is not 0. -/
  | reservedNotZero
  /-- RSVD is 0 and OPC is neither 0x01 nor 0x02. -/
  | illegalOpcode
deriving DecidableEq, Repr

/-- The two fields of a command word (R100): OPC = bits 7:0, RSVD = bits 63:8. -/
def splitWord (w : Word) : CmdWord := { opc := w.extractLsb' 0 8, rsvd := w.extractLsb' 8 56 }

/-- The word of two fields: RSVD above OPC (R100). -/
def joinWord (c : CmdWord) : Word := (c.rsvd ++ c.opc).cast (by decide)

/-- Decode a command word by the opcode map (R103): total, every word is MUL, NTT_LAYER or illegal (R104). -/
def decode (w : Word) : Except DecodeError Instr :=
  if (splitWord w).rsvd ≠ 0 then .error .reservedNotZero
  else if (splitWord w).opc = 0x01 then .ok .mul
  else if (splitWord w).opc = 0x02 then .ok .nttLayer
  else .error .illegalOpcode

/-- The command word of a command (R103, R104). -/
def encode (i : Instr) : Word := joinWord (WellFormed.fields i)

/-- What the decoder reads from an instruction of `nbits` bits whose bits are `w`. A command is exactly one
64-bit word (R101): bits above `nbits` are 0, and more than 64 bits are no command. -/
def decodeTableWord (nbits w : Nat) : Option Instr :=
  if nbits ≤ 64 then (decode (BitVec.ofNat 64 (w % 2 ^ nbits))).toOption else none

end Sys2Proof
end

