-- ==== Sys2Proof/Config.lean ====
section
/-! DEFINITION. What is fixed for the block: the modulus, and the free values of the spec (R12). -/

namespace Sys2Proof.Config

/-- The fixed modulus p = 2^251 + 17·2^192 + 1 (R2). No register or input changes it. -/
def p : Nat := 0x0800000000000011000000000000000000000000000000000000000000000001

/-- The draw `any256()` of R10 and R12: draw number k is any 256-bit value. It has no body, so nothing in
Lean can evaluate it and a statement that holds, holds for every value (log entry 7). -/
opaque any256 : Nat → Elem

/-- The byte that an address of data memory holds when no byte is listed for it. DESIGN CHOICE (unsafe for
runs from reset, log entry 2): the spec says nothing of data memory at power-on. -/
def blankByte : Byte := 0

end Sys2Proof.Config
end

