-- ==== Sys2Proof/Machine/Field.lean ====
section
/-! DEFINITION. The arithmetic of the block: Montgomery multiplication and the lazy butterfly, on exact
integers (R9, R130 to R142, R180 to R188). -/

namespace Sys2Proof.Machine

open Sys2Proof.Config (p any256)

/-- Limb i of a 256-bit value (R8). -/
def limbOf (v i : Nat) : Nat := (v >>> (64 * i)) % 2 ^ 64

/-- Step 2's factor u = (0 - val) mod 2^64 (R133, R135), on natural numbers. -/
def montFactor (val : Nat) : Nat := (2 ^ 64 - val % 2 ^ 64) % 2 ^ 64

/-- The sum before the shift in one round, steps 1 to 3 of R133, for the round's limb xi of x. -/
def montSum (y val xi : Nat) : Nat := val + xi * y + montFactor (val + xi * y) * p

/-- One round of R133: the sum of steps 1 to 3 shifted right by one limb (step 4). -/
def montRound (y val xi : Nat) : Nat := montSum y val xi >>> 64

/-- `val` at the start of round k (R138): the first k of the rounds of R133, limbs of x in the order 0, 1, 2, 3
(R131), from 0 (R132). -/
def montVal (x y : Nat) : Nat → Nat
  | 0 => 0
  | k + 1 => montRound y (montVal x y k) (limbOf x k)

/-- MontMul (R133): four rounds and no final subtraction (R137). -/
def montMul (x y : Nat) : Nat := montVal x y 4

/-- LazyReduce2p (R180): subtract 2p if the difference is not negative. -/
def lazyReduce2p (a : Nat) : Nat := if a < 2 * p then a else a - 2 * p

/-- out1 of a butterfly with legal data (R182). -/
def bflyOut1 (in1 in2 tw : Nat) : Nat := lazyReduce2p in1 + montMul in2 tw

/-- out2 of a butterfly with legal data (R183): in1' - t + 2p, which is not negative (R184). -/
def bflyOut2 (in1 in2 tw : Nat) : Nat := lazyReduce2p in1 + 2 * p - montMul in2 tw

/-- The result of MUL (R143): MontMul if y < p, else the free value number k (R141). -/
def mulResult (x y : Elem) (k : Nat) : Elem :=
  if y.toNat < p then BitVec.ofNat 256 (montMul x.toNat y.toNat) else any256 k

/-- The number of free values `mulResult` takes. -/
def mulDraws (y : Elem) : Nat := if y.toNat < p then 0 else 1

/-- A butterfly's data is legal: in1 < 4p and tw < p; in2 is not restricted (R186, R188, R189). -/
def bflyLegal (in1 tw : Elem) : Bool := in1.toNat < 4 * p && tw.toNat < p

/-- out1 and out2 of a butterfly (R186): by R182 and R183 if the data is legal, else two independent free
values, number k and k + 1 (R188). -/
def bflyOutputs (in1 in2 tw : Elem) (k : Nat) : Elem × Elem :=
  if bflyLegal in1 tw then
    (BitVec.ofNat 256 (bflyOut1 in1.toNat in2.toNat tw.toNat), BitVec.ofNat 256 (bflyOut2 in1.toNat in2.toNat tw.toNat))
  else (any256 k, any256 (k + 1))

/-- The number of free values `bflyOutputs` takes. -/
def bflyDraws (in1 tw : Elem) : Nat := if bflyLegal in1 tw then 0 else 2

end Sys2Proof.Machine
end

