-- ==== Sys2Proof/Machine/State.lean ====
section
/-! DEFINITION. The state of the block, of the memory and agents around it, and the machine right after reset. -/

namespace Sys2Proof.Machine

/-- Reasons a step could stop the machine with a fault. There is none: the block takes no trap and no
error stops it (R260); an error is reported in STATUS and the machine goes on (R261, R262). Nobody raises a
fault; safe. -/
inductive Fault where
deriving DecidableEq, Repr

/-- Reasons the model could give no meaning. -/
inductive Refusal where
  /-- Raised by an arm of `exec` whose command has no meaning yet; no arm is left so. Safe: the model stops. -/
  | notModelled (mnemonic : String)
deriving DecidableEq, Repr

/-- The engine's state `st.fsm` (R43). -/
inductive Fsm where
  | idle | mulBusy | nttBusy
deriving DecidableEq, Repr

/-- The kind of a data-memory access (R71). -/
inductive AccessKind where
  | read | write
deriving DecidableEq, Repr

/-- A 256-bit value in four 64-bit registers, limb 0 first (R8, R39 to R41). -/
structure Limbs where
  l0 : Word
  l1 : Word
  l2 : Word
  l3 : Word
deriving DecidableEq, Repr

/-- The NTT parameters: the registers NTT_SRC to NTT_TWMASK (R32 to R38), and their latched copies (R45). -/
structure NttParams where
  src : Word
  srcEnd : Word
  dstOff : Word
  dist : Word
  twBase : Word
  twShift : BitVec 32
  twMask : Word
deriving DecidableEq, Repr

/-- Some accesses of the data memory: those of `bytes` bytes and kind `kind` whose first byte address lies
from `first` to `last`. -/
structure AccessRange where
  first : Nat
  last : Nat
  bytes : Nat
  kind : AccessKind
deriving DecidableEq, Repr

/-- Byte addresses from `first` to `last`. -/
structure AddrRange where
  first : Nat
  last : Nat
deriving DecidableEq, Repr

/-- IRQ_ROUTE (R267): the host interrupt line that `irq` drives, and that line's priority. The numbers are the
platform's own: the spec orders no priorities and the block compares none (log entry 4). -/
structure IrqRoute where
  line : Nat
  priority : Nat
deriving DecidableEq, Repr

/-- The platform's OPEN parameters (R7). They are arguments of the model: no step changes them, and a
statement about every state is about every platform (log entry 4). -/
structure Platform where
  /-- MMNTT_BASE, the base of the register window. -/
  base : Word
  /-- Whether the platform maps the register window into the memory port's view (R80), there too at `base`
  (DESIGN CHOICE, log entry 17). -/
  windowInDataMemory : Bool
  /-- The accesses for which MemAdmit is false (R71). -/
  refused : List AccessRange
  /-- The accesses that never get a response (R241). -/
  silent : List AccessRange
  /-- The locations that are not ordinary memory (R78). -/
  notMemory : List AddrRange
  /-- IRQ_ROUTE: the host interrupt line `irq` drives, and its priority (R267). -/
  irqRoute : IrqRoute
deriving DecidableEq, Repr

/-- A transaction on the register bus: its offset in the 256-byte window, the bytes transferred, and for a
write its data (R107, R230, R231). -/
inductive BusTransaction where
  | write (off : BitVec 8) (bytes : Nat) (v : Word)
  | read (off : BitVec 8) (bytes : Nat)
deriving DecidableEq, Repr

/-- One atomic event (R240), or a data-memory access of the host (R49, R108). -/
inductive Event where
  /-- A register-bus transaction, valid or not (R240 (a)). -/
  | bus (t : BusTransaction)
  /-- One engine step (R240 (b)); nothing happens while IDLE, when no engine step is enabled. -/
  | engine
  /-- A reset (R240 (c)). -/
  | reset
  /-- The host writes these bytes to data memory, the first at the address given. -/
  | hostWrite (addr : Word) (data : List Byte)
  /-- The host reads `count` bytes of data memory. -/
  | hostRead (addr : Word) (count : Nat)
  /-- The pending racing host write number `index` takes effect (R85). -/
  | land (index : Nat)
deriving DecidableEq, Repr

/-- What the host got back from its last bus transaction or data-memory access (R230 to R232, R108). -/
inductive Reply where
  /-- None yet. -/
  | none
  /-- A valid register write was performed. -/
  | written
  /-- A valid register read returned this value. -/
  | value (v : Word)
  /-- An invalid transaction's error response; an invalid read returns 0 with it (R231). -/
  | errorResponse (v : Word)
  /-- A host data-memory write was issued. -/
  | memWritten
  /-- A host data-memory read returned these bytes. -/
  | memData (bytes : List Byte)
deriving DecidableEq, Repr

/-- The data memory: the listed bytes, addresses strictly rising, none equal to what an unlisted address
reads as (`Config.blankByte`). -/
abbrev Memory := List Host.Cell

/-- The state of the machine. -/
structure State where
  /-- `st.fsm` (R43); STATUS.BUSY is `fsm ≠ idle` (R24). -/
  fsm : Fsm
  /-- STATUS.DONE (R25). -/
  done : Bool
  /-- STATUS.OVR (R26). -/
  ovr : Bool
  /-- STATUS.ERR (R27). -/
  err : BitVec 4
  /-- CTRL.IRQ_EN (R29). -/
  irqEn : Bool
  /-- BFLY_COUNT (R30). -/
  bflyCount : Word
  /-- FAULT_ADDR (R31). -/
  faultAddr : Word
  /-- NTT_SRC to NTT_TWMASK (R32 to R38). -/
  ntt : NttParams
  /-- X0 to X3 (R39). -/
  x : Limbs
  /-- Y0 to Y3 (R40). -/
  y : Limbs
  /-- RES0 to RES3 (R41). -/
  res : Limbs
  /-- `st.lx` (R44). -/
  lx : Elem
  /-- `st.ly` (R44). -/
  ly : Elem
  /-- The latched NTT parameters (R45). -/
  lat : NttParams
  /-- `st.o`, the in2 byte offset, at least 66 bits (R46). -/
  o : Nat
  /-- `st.n`, the region's length in bytes (R46). -/
  n : Word
  /-- The model's own: the engine waits for a memory that never responds (R241, log entry 5). -/
  hung : Bool
  /-- The model's own: the running layer's destination values are lost (R85, R78; log entry 8). -/
  raced : Bool
  /-- The data memory (R70). -/
  mem : Memory
  /-- The model's own: racing host byte writes that have not taken effect (R85, log entry 8). -/
  pending : List (Word × Byte)
  /-- What the host got back last (R230 to R232). -/
  reply : Reply
  /-- The model's own: the number of the next free value (R12, log entry 7). -/
  draws : Nat
  /-- The platform's OPEN parameters (R7). -/
  platform : Platform
  /-- The model's own: the events still to come, in their order (R240, log entry 6). -/
  inputs : List Event
deriving DecidableEq, Repr

/-- Four limbs of 0. -/
def Limbs.zero : Limbs := { l0 := 0, l1 := 0, l2 := 0, l3 := 0 }

/-- All seven NTT parameters 0. -/
def NttParams.zero : NttParams :=
  { src := 0, srcEnd := 0, dstOff := 0, dist := 0, twBase := 0, twShift := 0, twMask := 0 }

/-- DESIGN CHOICE (log entry 4): a platform whose memory admits every access, as the programs of
`95_test_vectors.md` assume; the spec leaves every field OPEN. -/
def Platform.plain : Platform :=
  { base := 0, windowInDataMemory := false, refused := [], silent := [], notMemory := [],
    irqRoute := { line := 0, priority := 0 } }

/-- The machine right after reset (R48, R291): every host-visible register 0 and `st.fsm` = IDLE. The hidden
copies, `o` and `n` have the value 0 by DESIGN CHOICE (log entry 1: the spec says unspecified, never read);
the memory is blank (log entry 2), nothing is pending, and no event is placed (log entry 6). -/
def State.reset : State :=
  { fsm := .idle, done := false, ovr := false, err := 0, irqEn := false, bflyCount := 0, faultAddr := 0
    ntt := NttParams.zero, x := Limbs.zero, y := Limbs.zero, res := Limbs.zero
    lx := 0, ly := 0, lat := NttParams.zero, o := 0, n := 0, hung := false, raced := false
    mem := [], pending := [], reply := .none, draws := 0, platform := Platform.plain, inputs := [] }

end Sys2Proof.Machine
end

