-- ==== Sys2Proof/Machine/Flags.lean ====
section
/-! DEFINITION. STATUS, CTRL and irq: how they read, and every change the spec makes to them. -/

namespace Sys2Proof.Machine

/-- STATUS.BUSY (R24): an accepted command has not finished. -/
def busy (s : State) : Bool := s.fsm != .idle

/-- A read of STATUS (R28): {52'b0, ERR, 5'b0, OVR, DONE, BUSY}. -/
def statusWord (s : State) : Word :=
  ((0 : BitVec 52) ++ s.err ++ (0 : BitVec 5) ++ BitVec.ofBool s.ovr ++ BitVec.ofBool s.done ++
    BitVec.ofBool (busy s)).cast (by decide)

/-- A read of CTRL (R29): IRQ_EN in bit 0, bits 63:1 read 0. -/
def ctrlWord (s : State) : Word := ((0 : BitVec 63) ++ BitVec.ofBool s.irqEn).cast (by decide)

/-- The `irq` output (R47): STATUS.DONE and CTRL.IRQ_EN. -/
def irq (s : State) : Bool := s.done && s.irqEn

/-- The host interrupt lines the block asserts, each with its priority: the one IRQ_ROUTE names, while `irq` is 1
(R267). -/
def hostIrqLines (s : State) : List IrqRoute := if irq s then [s.platform.irqRoute] else []

/-- Acceptance clears DONE and ERR (R25, R27, R234). OVR stays (R26). -/
def flagsAccept (s : State) : State := { s with done := false, err := 0 }

/-- Normal completion sets DONE and clears ERR (R25, R143, R192). -/
def flagsFinish (s : State) : State := { s with done := true, err := 0 }

/-- A refusal sets DONE, with ERR = 1 ILLEGAL_CMD (R25, R235, R261). -/
def flagsRefuse (s : State) : State := { s with done := true, err := 1 }

/-- A bus-error abort sets DONE, with ERR = 2 BUS_ERROR (R25, R261, R262). -/
def flagsAbort (s : State) : State := { s with done := true, err := 2 }

/-- A CMD write while busy sets OVR and nothing else (R26, R236, R264). -/
def flagsOverrun (s : State) : State := { s with ovr := true }

/-- A write of v to STATUS (R237): DONE and OVR are write-1-to-clear, everything else is unchanged. -/
def flagsStatusWrite (v : Word) (s : State) : State :=
  { s with done := s.done && !v.getLsbD 1, ovr := s.ovr && !v.getLsbD 2 }

/-- A write of v to CTRL (R29, R233): IRQ_EN <- v[0]. -/
def flagsCtrlWrite (v : Word) (s : State) : State := { s with irqEn := v.getLsbD 0 }

end Sys2Proof.Machine
end

