-- ==== Sys2Proof/Machine/Operands.lean ====
section
/-! DEFINITION. Operand forms: 256-bit values in four registers, the latched NTT parameters, the element
addresses of a butterfly, the walk over the array, and the footprint of a layer. -/

namespace Sys2Proof.Machine

/-! ### 256-bit operands in four registers (R8, R39 to R41) -/

/-- The value {l3, l2, l1, l0}: limb 0 is the least significant (R8). -/
def Limbs.toElem (l : Limbs) : Elem := (l.l3 ++ l.l2 ++ l.l1 ++ l.l0).cast (by decide)

/-- The four limbs of a value: limb i is bits 64i+63 to 64i (R8). -/
def Limbs.ofElem (v : Elem) : Limbs :=
  { l0 := v.extractLsb' 0 64, l1 := v.extractLsb' 64 64, l2 := v.extractLsb' 128 64, l3 := v.extractLsb' 192 64 }

/-- Register number i of four. -/
def Limbs.get (l : Limbs) : Fin 4 → Word
  | 0 => l.l0
  | 1 => l.l1
  | 2 => l.l2
  | 3 => l.l3

/-- Register number i of four set to v. -/
def Limbs.set (l : Limbs) (i : Fin 4) (v : Word) : Limbs :=
  match i with
  | 0 => { l with l0 := v }
  | 1 => { l with l1 := v }
  | 2 => { l with l2 := v }
  | 3 => { l with l3 := v }

/-! ### The walk (R173, R176) -/

/-- The region's length `st.n` (R173): `st.end - st.src` if `st.end > st.src`, else 0. -/
def loopLength (l : NttParams) : Word := if l.src < l.srcEnd then l.srcEnd - l.src else 0

/-- Advance (R176): the candidate is one element further; if its AND with the distance is not 0, the
distance is added. On exact integers. -/
def advance (o d : Nat) : Nat := if (o + 32) &&& d ≠ 0 then o + 32 + d else o + 32

/-- The offsets visited from `o` on while they are below `n`, at most `fuel` of them (R173, R176). -/
def walk (d n : Nat) : Nat → Nat → List Nat
  | 0, _ => []
  | fuel + 1, o => if o < n then o :: walk d n fuel (advance o d) else []

/-- Every offset a layer visits: there are at most ⌈n/32⌉ (R193). -/
def offsets (l : NttParams) (n : Word) : List Nat := walk l.dist.toNat n.toNat ((n.toNat + 31) / 32) 0

/-! ### Element addresses (R174, R178) -/

/-- The twiddle's address (R178): the offset shifted and masked, added unscaled to the table's base. -/
def twAddr (l : NttParams) (o : Nat) : Word :=
  l.twBase + BitVec.ofNat 64 ((o >>> l.twShift.toNat) &&& l.twMask.toNat)

/-- The address of in2 (R174). -/
def in2Addr (l : NttParams) (o : Nat) : Word := l.src + BitVec.ofNat 64 o

/-- The address of in1, the distance before in2 (R174). -/
def in1Addr (l : NttParams) (o : Nat) : Word := in2Addr l o - l.dist

/-- The address of out1 (R174). Adding the two's-complement offset s64 modulo 2^64 is adding the word. -/
def out1Addr (l : NttParams) (o : Nat) : Word := in1Addr l o + l.dstOff

/-- The address of out2 (R174). -/
def out2Addr (l : NttParams) (o : Nat) : Word := in2Addr l o + l.dstOff

/-! ### The footprint (R190) -/

/-- Whether the 32 bytes from a, modulo 2^64, hold the byte address b (R75). -/
def inElem (a b : Word) : Bool := (b - a).toNat < 32

/-- Whether b is a byte the layer reads (R190). -/
def inReadFootprint (l : NttParams) (n b : Word) : Bool :=
  (offsets l n).any fun o => inElem (in1Addr l o) b || inElem (in2Addr l o) b || inElem (twAddr l o) b

/-- Whether b is a byte the layer writes (R190). -/
def inWriteFootprint (l : NttParams) (n b : Word) : Bool :=
  (offsets l n).any fun o => inElem (out1Addr l o) b || inElem (out2Addr l o) b

/-- Whether b is a byte of the layer's footprint (R190). -/
def inFootprint (l : NttParams) (n b : Word) : Bool := inReadFootprint l n b || inWriteFootprint l n b

/-- The 32 byte addresses of the element at a, modulo 2^64 (R75). -/
def elemBytes (a : Word) : List Word := (List.range 32).map fun k => a + BitVec.ofNat 64 k

/-- The element addresses of the butterfly at offset o. -/
def bflyElems (l : NttParams) (o : Nat) : List Word :=
  [in1Addr l o, in2Addr l o, twAddr l o, out1Addr l o, out2Addr l o]

/-- Whether b is a location that is not ordinary memory (R78). -/
def notMemoryAt (P : Platform) (b : Word) : Bool :=
  P.notMemory.any fun r => r.first ≤ b.toNat && b.toNat ≤ r.last

/-- Whether the layer's footprint includes a location that is not ordinary memory (R78). -/
def touchesNotMemory (P : Platform) (l : NttParams) (n : Word) : Bool :=
  !P.notMemory.isEmpty &&
    (offsets l n).any fun o => (bflyElems l o).any fun a => (elemBytes a).any (notMemoryAt P)

end Sys2Proof.Machine
end

