-- ==== Sys2Proof/Machine/Ops.lean ====
section
/-! DEFINITION. The named operations: data memory, what the platform answers to an access, the register
window, and the shared operations of commands: acceptance, refusal, completion, the bus-error abort. -/

namespace Sys2Proof.Machine

open Sys2Proof.Config (any256 blankByte)

/-! ### Data memory (R70, R72, R73, R75) -/

/-- The byte at an address. -/
def Memory.read : Memory → Nat → Byte
  | [], _ => blankByte
  | c :: m, a => if c.1 = a then c.2 else Memory.read m a

/-- The byte b stored at address a; the list stays canonical. -/
def Memory.write : Memory → Nat → Byte → Memory
  | [], a, b => if b = blankByte then [] else [(a, b)]
  | c :: m, a, b =>
    if c.1 < a then c :: Memory.write m a b
    else if c.1 = a then (if b = blankByte then m else (a, b) :: m)
    else (if b = blankByte then c :: m else (a, b) :: c :: m)

/-- Every address of the list is at least `lo`, addresses rise, lie below 2^64, and no byte is the blank one. -/
def Memory.wfFrom (lo : Nat) : Memory → Bool
  | [] => true
  | c :: m => decide (lo ≤ c.1) && decide (c.1 < 2 ^ 64) && c.2 != blankByte && Memory.wfFrom (c.1 + 1) m

/-- The canonical form of a memory. -/
def Memory.wf (m : Memory) : Bool := Memory.wfFrom 0 m

/-- The little-endian number of k bytes from a, addresses modulo 2^64 (R10, R73, R75). -/
def Memory.readBytes (m : Memory) (a : Word) : Nat → Nat
  | 0 => 0
  | k + 1 => (m.read a.toNat).toNat + 256 * Memory.readBytes m (a + 1) k

/-- Store the k low bytes of v from a on, little-endian, addresses modulo 2^64 (R10), at those byte
addresses that `sel` admits. -/
def Memory.writeBytes (sel : Word → Bool) (m : Memory) (a : Word) (v : Nat) : Nat → Memory
  | 0 => m
  | k + 1 =>
    Memory.writeBytes sel (if sel a then m.write a.toNat (BitVec.ofNat 8 v) else m) (a + 1) (v / 256) k

/-- Elem(a) = MemRead(a, 32) (R11). -/
def Memory.elem (m : Memory) (a : Word) : Elem := BitVec.ofNat 256 (m.readBytes a 32)

/-- MemWrite(a, 32, v) (R11). -/
def Memory.setElem (m : Memory) (a : Word) (v : Elem) : Memory := m.writeBytes (fun _ => true) a v.toNat 32

/-! ### What the platform answers to an access (R71, R80, R241) -/

/-- What an element access meets: it completes, it gets an error response (R71), or it never gets a
response (R241). -/
inductive Response where
  | completes | error | never
deriving DecidableEq, Repr

/-- Whether the range holds the n-byte access of this kind at a. -/
def AccessRange.covers (r : AccessRange) (a : Word) (n : Nat) (kind : AccessKind) : Bool :=
  decide (r.first ≤ a.toNat) && decide (a.toNat ≤ r.last) && r.bytes == n && r.kind == kind

/-- MemAdmit(a, n, kind): the platform completes the n-byte access at a (R71). -/
def Platform.memAdmit (P : Platform) (a : Word) (n : Nat) (kind : AccessKind) : Bool :=
  !P.refused.any fun r => r.covers a n kind

/-- Whether a byte address lies in the block's own register window as the memory port sees it (R80). DESIGN
CHOICE (log entry 17): a window mapped into the data-memory view is at the same MMNTT_BASE there. -/
def Platform.inWindow (P : Platform) (b : Word) : Bool := P.windowInDataMemory && decide ((b - P.base).toNat < 256)

/-- Whether the platform admits an access of this kind to one byte (R71), the own window never (R80). -/
def Platform.admitsByte (P : Platform) (kind : AccessKind) (b : Word) : Bool :=
  P.memAdmit b 1 kind && !P.inWindow b

/-- Whether an element access is admitted: the 32-byte access and each of its 32 bytes are (R71, R75;
log entry 14). -/
def Platform.admitsElem (P : Platform) (kind : AccessKind) (a : Word) : Bool :=
  P.memAdmit a 32 kind && (elemBytes a).all (P.admitsByte kind)

/-- Whether an element access never gets a response (R241, log entry 5). -/
def Platform.silentElem (P : Platform) (kind : AccessKind) (a : Word) : Bool :=
  P.silent.any fun r => r.covers a 32 kind || (elemBytes a).any fun b => r.covers b 1 kind

/-- What an element access at a meets. DESIGN CHOICE (log entry 5): an access that the platform lists as silent
gets no response even where it is refused as well (R71) or has a byte in the block's own window (R80). -/
def Platform.response (P : Platform) (kind : AccessKind) (a : Word) : Response :=
  if P.silentElem kind a then .never else if P.admitsElem kind a then .completes else .error

/-! ### Races and unspecified destinations (R78, R85) -/

/-- Both destination elements of each butterfly of the list hold free values, numbered from k. -/
def scramble (l : NttParams) : List Nat → Memory → Nat → Memory × Nat
  | [], m, k => (m, k)
  | o :: os, m, k =>
    scramble l os ((m.setElem (out1Addr l o) (any256 k)).setElem (out2Addr l o) (any256 (k + 1))) (k + 2)

/-- At the end of a layer whose destination values are lost (R85, R78), every byte of its write footprint
holds any value. -/
def settleRace (s : State) : State :=
  if s.raced then
    { s with
      mem := (scramble s.lat (offsets s.lat s.n) s.mem s.draws).1
      draws := (scramble s.lat (offsets s.lat s.n) s.mem s.draws).2
      raced := false }
  else s

/-! ### The end of a command, and its acceptance -/

/-- Normal completion of a command (R143, R192): DONE <- 1, ERR <- 0, IDLE. -/
def finishCommand (s : State) : State := flagsFinish { s with fsm := .idle }

/-- `raise BusError(a)` (R262): the block's counterpart of taking an exception. FAULT_ADDR <- a, ERR <- 2,
DONE <- 1, IDLE; BFLY_COUNT, `st.o`, RES and OVR are unchanged. There is no return from it (R260, R270).
DESIGN CHOICE (log entry 16): `st.n` too keeps its last value, although R46 leaves both unspecified from here on. -/
def raiseBusError (a : Word) (s : State) : State :=
  flagsAbort { settleRace s with faultAddr := a, fsm := .idle }

/-- A CMD write with an invalid word while IDLE is refused (R235): ERR <- 1, DONE <- 1, nothing else. -/
def refuseCommand (s : State) : State := flagsRefuse s

/-- What every acceptance does (R234): DONE <- 0, ERR <- 0, FAULT_ADDR <- 0. -/
def acceptCommand (s : State) : State := flagsAccept { s with faultAddr := 0 }

/-- The engine waits for a response that never comes (R241): BUSY stays 1. DESIGN CHOICE (log entry 5): an
element write that gets no response leaves its bytes unchanged. -/
def hang (s : State) : State := { s with hung := true }

/-- What a failed element access leaves in memory (R262): a failing read nothing; of a failing write, the
bytes the platform admits hold any value (S1), the others are unchanged. -/
def failedAccess (kind : AccessKind) (a : Word) (s : State) : State :=
  match kind with
  | .read => s
  | .write =>
    { s with
      mem := s.mem.writeBytes (s.platform.admitsByte .write) a (any256 s.draws).toNat 32
      draws := s.draws + 1 }

/-- One element access of a butterfly (R186): if it completes the step goes on as `go`; if it is not
admitted it raises BusError(a); if it never gets a response the engine waits, and the access itself changes no
byte (DESIGN CHOICE, log entry 5). -/
def elemAccess (kind : AccessKind) (a : Word) (s : State) (go : State) : State :=
  match s.platform.response kind a with
  | .completes => go
  | .error => raiseBusError a (failedAccess kind a s)
  | .never => hang s

/-- Store an element. -/
def storeElem (a : Word) (v : Elem) (s : State) : State := { s with mem := s.mem.setElem a v }

/-! ### The register window (R22, R231 to R233) -/

/-- The registers of the window. -/
inductive Reg where
  | cmd | status | ctrl | bflyCount | faultAddr
  | nttSrc | nttEnd | nttDstOff | nttDist | nttTwBase | nttTwShift | nttTwMask
  | x (i : Fin 4)
  | y (i : Fin 4)
  | res (i : Fin 4)
deriving DecidableEq, Repr

/-- The byte offset of a register (R22). -/
def Reg.offset : Reg → BitVec 8
  | .cmd => 0x00 | .status => 0x08 | .ctrl => 0x10 | .bflyCount => 0x18 | .faultAddr => 0x20
  | .nttSrc => 0x40 | .nttEnd => 0x48 | .nttDstOff => 0x50 | .nttDist => 0x58
  | .nttTwBase => 0x60 | .nttTwShift => 0x68 | .nttTwMask => 0x70
  | .x i => 0x80 + 8 * BitVec.ofNat 8 i
  | .y i => 0xA0 + 8 * BitVec.ofNat 8 i
  | .res i => 0xC0 + 8 * BitVec.ofNat 8 i

/-- The register at a byte offset (R22); none at a reserved offset (R42) or one that is not a multiple of 8. -/
def regAt (off : BitVec 8) : Option Reg :=
  match off.toNat with
  | 0x00 => some .cmd
  | 0x08 => some .status
  | 0x10 => some .ctrl
  | 0x18 => some .bflyCount
  | 0x20 => some .faultAddr
  | 0x40 => some .nttSrc
  | 0x48 => some .nttEnd
  | 0x50 => some .nttDstOff
  | 0x58 => some .nttDist
  | 0x60 => some .nttTwBase
  | 0x68 => some .nttTwShift
  | 0x70 => some .nttTwMask
  | 0x80 => some (.x 0)
  | 0x88 => some (.x 1)
  | 0x90 => some (.x 2)
  | 0x98 => some (.x 3)
  | 0xA0 => some (.y 0)
  | 0xA8 => some (.y 1)
  | 0xB0 => some (.y 2)
  | 0xB8 => some (.y 3)
  | 0xC0 => some (.res 0)
  | 0xC8 => some (.res 1)
  | 0xD0 => some (.res 2)
  | 0xD8 => some (.res 3)
  | _ => none

/-- A transaction is valid only as a full 64-bit access at a multiple of 8 (R231). -/
def busValid (off : BitVec 8) (bytes : Nat) : Bool := bytes == 8 && off.toNat % 8 == 0

/-- The value a register reads as (R22 to R41, R232). CMD reads 0 (R23). -/
def readReg (s : State) : Reg → Word
  | .cmd => 0
  | .status => statusWord s
  | .ctrl => ctrlWord s
  | .bflyCount => s.bflyCount
  | .faultAddr => s.faultAddr
  | .nttSrc => s.ntt.src
  | .nttEnd => s.ntt.srcEnd
  | .nttDstOff => s.ntt.dstOff
  | .nttDist => s.ntt.dist
  | .nttTwBase => s.ntt.twBase
  | .nttTwShift => s.ntt.twShift.setWidth 64
  | .nttTwMask => s.ntt.twMask
  | .x i => s.x.get i
  | .y i => s.y.get i
  | .res i => s.res.get i

/-- The value a byte offset reads as: a reserved offset reads 0 (R42, R232). -/
def readOffset (s : State) (off : BitVec 8) : Word :=
  match regAt off with
  | some r => readReg s r
  | none => 0

/-- A write of v to a register other than CMD, whose write is dispatched (R233). BFLY_COUNT, FAULT_ADDR and
RES ignore writes. -/
def writeReg (s : State) (v : Word) : Reg → State
  | .cmd => s
  | .status => flagsStatusWrite v s
  | .ctrl => flagsCtrlWrite v s
  | .bflyCount => s
  | .faultAddr => s
  | .nttSrc => { s with ntt := { s.ntt with src := v } }
  | .nttEnd => { s with ntt := { s.ntt with srcEnd := v } }
  | .nttDstOff => { s with ntt := { s.ntt with dstOff := v } }
  | .nttDist => { s with ntt := { s.ntt with dist := v } }
  | .nttTwBase => { s with ntt := { s.ntt with twBase := v } }
  | .nttTwShift => { s with ntt := { s.ntt with twShift := v.setWidth 32 } }
  | .nttTwMask => { s with ntt := { s.ntt with twMask := v } }
  | .x i => { s with x := s.x.set i v }
  | .y i => { s with y := s.y.set i v }
  | .res _ => s

/-- The reply of an event recorded for the host. -/
def setReply (r : Reply) (s : State) : State := { s with reply := r }

end Sys2Proof.Machine
end

