-- ==== Sys2Proof/Machine/Mul.lean ====
section
/-! DEFINITION. MUL: the Field Primitive as a command (R143 to R145). -/

namespace Sys2Proof.Machine

/-- MUL is accepted (R234): X and Y are latched and the engine becomes MUL_BUSY. -/
def acceptMul (s : State) : State :=
  { acceptCommand s with lx := s.x.toElem, ly := s.y.toElem, fsm := .mulBusy }

/-- The one engine step of a MUL (R143): all of RES in this step (R145), DONE <- 1, ERR <- 0, IDLE. It reads
only the latched copies (R44) and touches no memory (R144). -/
def mulStep (s : State) : State :=
  finishCommand
    { s with
      res := Limbs.ofElem (mulResult s.lx s.ly s.draws)
      draws := s.draws + mulDraws s.ly }

/-- MUL: accepted while IDLE (R234), its engine step while MUL_BUSY (R143), an overrun while the engine
runs the other command (R236). -/
def execMul (s : State) : Host.Outcome State Fault Refusal :=
  match s.fsm with
  | .idle => .next (acceptMul s)
  | .mulBusy => .next (mulStep s)
  | .nttBusy => .next (flagsOverrun s)

end Sys2Proof.Machine
end

