-- ==== Sys2Proof/Machine/Ntt.lean ====
section
/-! DEFINITION. NTT_LAYER: one layer of the butterfly engine (R170 to R197). -/

namespace Sys2Proof.Machine

/-- NTT_LAYER is accepted (R234): the parameters are latched, the loop state is initialised (R173),
BFLY_COUNT <- 0, and the engine becomes NTT_BUSY. If the footprint includes a location that is not ordinary
memory, the destination values are lost from the start (R78, log entry 9). -/
def acceptNtt (s : State) : State :=
  { acceptCommand s with
    lat := s.ntt
    o := 0
    n := loopLength s.ntt
    bflyCount := 0
    fsm := .nttBusy
    hung := false
    raced := touchesNotMemory s.platform s.ntt (loopLength s.ntt) }

/-- A butterfly completed (R175 (a), R187): BFLY_COUNT + 1 and `st.o` advances. -/
def bflyDone (s : State) : State :=
  { s with bflyCount := s.bflyCount + 1, o := advance s.o s.lat.dist.toNat }

/-- Free values a butterfly has taken. -/
def takeDraws (k : Nat) (s : State) : State := { s with draws := s.draws + k }

/-- The three elements the butterfly at `st.o` reads from the memory as it stands: in1, in2, twiddle. -/
def bflyInputs (s : State) : Elem × Elem × Elem :=
  (s.mem.elem (in1Addr s.lat s.o), s.mem.elem (in2Addr s.lat s.o), s.mem.elem (twAddr s.lat s.o))

/-- out1 and out2 of the butterfly at `st.o` (R186, R188). -/
def bflyResults (s : State) : Elem × Elem :=
  bflyOutputs (bflyInputs s).1 (bflyInputs s).2.1 (bflyInputs s).2.2 s.draws

/-- The free values the butterfly at `st.o` takes. -/
def bflyTaken (s : State) : Nat := bflyDraws (bflyInputs s).1 (bflyInputs s).2.2

/-- The state after access 4 of the butterfly at `st.o`: out1 is written (R186). -/
def bflyOneWritten (s : State) : State :=
  takeDraws (bflyTaken s) (storeElem (out1Addr s.lat s.o) (bflyResults s).1 s)

/-- The state after access 5 of the butterfly at `st.o`: out2 is written too (R186). -/
def bflyBothWritten (s : State) : State :=
  storeElem (out2Addr s.lat s.o) (bflyResults s).2 (bflyOneWritten s)

/-- BflyStep (R186) and what follows it (R175 (a)): five element accesses in order, each of which may raise
BusError; all three reads come before either write, and out1 is written before out2. -/
def bflyStep (s : State) : State :=
  elemAccess .read (in1Addr s.lat s.o) s <|
  elemAccess .read (in2Addr s.lat s.o) s <|
  elemAccess .read (twAddr s.lat s.o) s <|
  elemAccess .write (out1Addr s.lat s.o) (takeDraws (bflyTaken s) s) <|
  elemAccess .write (out2Addr s.lat s.o) (bflyOneWritten s) <|
  bflyDone (bflyBothWritten s)

/-- The completion step (R192): no memory access by the engine; DONE <- 1, ERR <- 0, IDLE. DESIGN CHOICE (log
entry 16): `st.o` and `st.n`, unspecified outside NTT_BUSY (R46), keep their last values. -/
def nttFinish (s : State) : State := finishCommand (settleRace s)

/-- One engine step of NTT_LAYER (R175): a butterfly while `st.o < st.n`, else the completion step. An
engine that waits for a memory that never responds goes on waiting (R241). -/
def nttStep (s : State) : State :=
  if s.hung then s else if s.o < s.n.toNat then bflyStep s else nttFinish s

/-- NTT_LAYER: accepted while IDLE (R234), its engine step while NTT_BUSY (R175), an overrun while the
engine runs the other command (R236). -/
def execNttLayer (s : State) : Host.Outcome State Fault Refusal :=
  match s.fsm with
  | .idle => .next (acceptNtt s)
  | .nttBusy => .next (nttStep s)
  | .mulBusy => .next (flagsOverrun s)

end Sys2Proof.Machine
end

