-- ==== Sys2Proof/Machine/Dispatch.lean ====
section
/-! DEFINITION. exec: one arm per command, each the direct call of its meaning. -/

namespace Sys2Proof.Machine

def exec (i : Instr) (s : State) : Host.Outcome State Fault Refusal :=
  match i with
  | .mul => Sys2Proof.Machine.execMul s
  | .nttLayer => Sys2Proof.Machine.execNttLayer s

end Sys2Proof.Machine
end

