-- ==== Sys2Proof/Machine/Events.lean ====
section
/-! DEFINITION. The atomic events of R240: register-bus transactions with command dispatch, engine steps,
reset; and the host's accesses to data memory. -/

namespace Sys2Proof.Machine

open Sys2Proof.Config (any256)

/-! ### Register-bus transactions (R230 to R237) -/

/-- A write of w to CMD, decided in the order of R265: an overrun while busy (R236), else refused if the word
is invalid (R235), else accepted (R234). -/
def cmdWrite (w : Word) (s : State) : Host.Outcome State Fault Refusal :=
  if busy s then .next (flagsOverrun s)
  else
    match decode w with
    | .ok i => exec i s
    | .error _ => .next (refuseCommand s)

/-- A valid register write (R233): CMD is dispatched, a reserved offset ignores it (R42). -/
def busWrite (off : BitVec 8) (v : Word) (s : State) : Host.Outcome State Fault Refusal :=
  match regAt off with
  | some .cmd => cmdWrite v s
  | some r => .next (writeReg s v r)
  | none => .next s

/-- One register-bus transaction. An invalid one gets an error response and changes no state (R231); a
read changes no state (R232). -/
def busTransaction (t : BusTransaction) (s : State) : Host.Outcome State Fault Refusal :=
  match t with
  | .write off bytes v =>
    if busValid off bytes then busWrite off v (setReply .written s) else .next (setReply (.errorResponse 0) s)
  | .read off bytes =>
    if busValid off bytes then .next (setReply (.value (readOffset s off)) s)
    else .next (setReply (.errorResponse 0) s)

/-! ### Engine steps (R240 (b)) -/

/-- One engine step: that of the running command; none is enabled while IDLE (R143, R175). -/
def engineStep (s : State) : Host.Outcome State Fault Refusal :=
  match s.fsm with
  | .idle => .next s
  | .mulBusy => exec .mul s
  | .nttBusy => exec .nttLayer s

/-! ### Reset (R290 to R293) -/

/-- What reset leaves in the destination elements of the butterfly an implementation may have started, the
one at `st.o` if `st.o < st.n`: any value (R292). -/
def resetInFlight (s : State) : State :=
  if s.o < s.n.toNat then
    { s with
      mem := (scramble s.lat [s.o] s.mem s.draws).1
      draws := (scramble s.lat [s.o] s.mem s.draws).2 }
  else s

/-- What the end of the running command by reset does to data memory: nothing unless a layer runs (R292,
R293); a raced layer's write footprint holds any value (R85). -/
def resetMemory (s : State) : State :=
  if s.fsm = .nttBusy then settleRace (resetInFlight s) else s

/-- The reset event (R291): the block takes its reset values; the data memory is not reset (R293), and
memory, platform and host keep what is theirs. -/
def resetEvent (s : State) : State :=
  { State.reset with
    mem := (resetMemory s).mem
    draws := (resetMemory s).draws
    pending := s.pending
    reply := s.reply
    platform := s.platform
    inputs := s.inputs }

/-! ### The host's accesses to data memory (R49, R83 to R85, R108) -/

/-- A free byte. -/
def anyByte (k : Nat) : Byte := (any256 k).setWidth 8

/-- The host writes one byte: while a layer runs, a write to its footprint is a race and takes effect
later (R85); any other write takes effect at once. -/
def hostWriteByte (a : Word) (v : Byte) (s : State) : State :=
  if s.fsm = .nttBusy ∧ inFootprint s.lat s.n a then { s with pending := s.pending ++ [(a, v)], raced := true }
  else { s with mem := s.mem.write a.toNat v }

/-- The host writes bytes from address a on, addresses modulo 2^64. -/
def hostWriteBytes (a : Word) : List Byte → State → State
  | [], s => s
  | v :: vs, s => hostWriteBytes (a + 1) vs (hostWriteByte a v s)

/-- Whether a byte the host reads races a running layer's writes (R85). -/
def racingRead (a : Word) (s : State) : Bool := s.fsm == .nttBusy && inWriteFootprint s.lat s.n a

/-- The byte the host reads: any value if the read races (R85) or the location is not ordinary memory
(R78). -/
def hostByte (a : Word) (s : State) : Byte :=
  if racingRead a s || notMemoryAt s.platform a then anyByte s.draws else s.mem.read a.toNat

/-- What reading one byte changes: a racing read breaks the rule of R85. -/
def hostReadByte (a : Word) (s : State) : State :=
  { s with
    raced := s.raced || racingRead a s
    draws := if racingRead a s || notMemoryAt s.platform a then s.draws + 1 else s.draws }

/-- The host reads k bytes from address a on, addresses modulo 2^64: the bytes and the state after. -/
def hostReadBytes (a : Word) : Nat → State → List Byte × State
  | 0, s => ([], s)
  | k + 1, s =>
    (hostByte a s :: (hostReadBytes (a + 1) k (hostReadByte a s)).1, (hostReadBytes (a + 1) k (hostReadByte a s)).2)

/-- A pending racing write takes effect (R85); if a running layer's footprint holds its byte, that layer
is raced. -/
def landWrite (index : Nat) (s : State) : State :=
  match s.pending[index]? with
  | none => s
  | some c =>
    { s with
      mem := s.mem.write c.1.toNat c.2
      pending := s.pending.eraseIdx index
      raced := s.raced || (s.fsm == .nttBusy && inFootprint s.lat s.n c.1) }

/-! ### One event -/

/-- What an event does to the state. -/
def handleEvent (e : Event) (s : State) : Host.Outcome State Fault Refusal :=
  match e with
  | .bus t => busTransaction t s
  | .engine => engineStep s
  | .reset => .next (resetEvent s)
  | .hostWrite a data => .next (setReply .memWritten (hostWriteBytes a data s))
  | .hostRead a k => .next (setReply (.memData (hostReadBytes a k s).1) (hostReadBytes a k s).2)
  | .land i => .next (landWrite i s)

/-- What happens when no event is placed: a running command makes its next engine step (fairness, R241);
else a pending host write takes effect; else the block waits for a CMD write (R294). -/
def backgroundStep (s : State) : Host.Outcome State Fault Refusal :=
  if busy s then engineStep s else .next (landWrite 0 s)

/-- The event is taken from the list. -/
def takeInput (rest : List Event) (s : State) : State := { s with inputs := rest }

/-- The host's write of a command word as an event. A command is one full 64-bit write (R101); an
instruction of more bits is a transfer of more bytes, which is no valid transaction (R231). -/
def fetchEvent (nbits w : Nat) : Event :=
  .bus (.write Reg.cmd.offset (if nbits ≤ 64 then 8 else (nbits + 7) / 8) (BitVec.ofNat 64 (w % 2 ^ nbits)))

end Sys2Proof.Machine
end

