-- ==== Sys2Proof/Machine/Step.lean ====
section
/-! DEFINITION. One step: the next event of the list, or what the machine does by itself. -/

namespace Sys2Proof.Machine

/-- One atomic event (R240): the first of `inputs`; with none placed, `backgroundStep`. -/
def step (s : State) : Host.Outcome State Fault Refusal :=
  match s.inputs with
  | [] => backgroundStep s
  | e :: rest => handleEvent e (takeInput rest s)

/-- The state with this instruction placed as the very next event, a write to CMD, and the engine IDLE,
without which a CMD write is not decoded (R236, log entry 11). -/
def State.withFetchWord (s : State) (nbits w : Nat) : State :=
  { s with fsm := .idle, inputs := fetchEvent nbits w :: s.inputs }

end Sys2Proof.Machine
end

