-- ==== Sys2Proof/Machine/Script.lean ====
section
/-! DEFINITION. The host script notation (R108) and its pseudo-instructions (R109). An operation whose expansion
is fixed is a list of events. One that depends on what the host sees (`POLL`, `RDRES`, `WAITIRQ`) is a function of
the state and of the interleaving it runs in. -/

namespace Sys2Proof.Machine.Script

/-! ### Operations whose expansion is fixed

Each is the list of the host's own events; other events may be placed between them (R240, log entry 18). -/

/-- `WR <reg>, <value>` (R108). -/
def wr (r : Reg) (v : Word) : List Event := [.bus (.write r.offset 8 v)]

/-- `RD <reg>` as one event (R108). -/
def read (r : Reg) : Event := .bus (.read r.offset 8)

/-- `RD <reg>` (R108). -/
def rd (r : Reg) : List Event := [read r]

/-- The 32 bytes of an element, little-endian (R73). -/
def elemData (v : Elem) : List Byte := (List.range 32).map fun k => v.extractLsb' (8 * k) 8

/-- `MEMWR <addr>, <value256>` (R108). -/
def memWr (a : Word) (v : Elem) : List Event := [.hostWrite a (elemData v)]

/-- `MEMRD <addr>` (R108). -/
def memRd (a : Word) : List Event := [.hostRead a 32]

/-- `MUL` (R109). -/
def mul : List Event := wr .cmd 0x0000000000000001

/-- `NTT_LAYER` (R109). -/
def nttLayer : List Event := wr .cmd 0x0000000000000002

/-- `WRX <value256>` (R109). -/
def wrx (v : Elem) : List Event :=
  wr (.x 0) (v.extractLsb' 0 64) ++ wr (.x 1) (v.extractLsb' 64 64) ++ wr (.x 2) (v.extractLsb' 128 64) ++
    wr (.x 3) (v.extractLsb' 192 64)

/-- `WRY <value256>` (R109). -/
def wry (v : Elem) : List Event :=
  wr (.y 0) (v.extractLsb' 0 64) ++ wr (.y 1) (v.extractLsb' 64 64) ++ wr (.y 2) (v.extractLsb' 128 64) ++
    wr (.y 3) (v.extractLsb' 192 64)

/-- `CLRDONE` (R109). -/
def clrDone : List Event := wr .status 0x0000000000000002

/-- `CLROVR` (R109). -/
def clrOvr : List Event := wr .status 0x0000000000000004

/-! ### Running a script in its interleaving (R240)

DESIGN CHOICE (log entry 18): the spec does not say which events may fall between the reads of one pseudo-instruction,
or during a wait. The functions below admit every event there: engine steps, resets, held-back host writes that take
effect, data-memory accesses, and register-bus transactions of whoever issues them. -/

/-- The state after one event; none if it did not go on, but every event does (R260). -/
def after (e : Event) (s : State) : Option State :=
  match handleEvent e s with
  | .next t => some t
  | .fault _ => none
  | .refused _ => none

/-- The state after the events of a gap before one read of a pseudo-instruction: any events (log entry 18). -/
def afterGap : List Event → State → Option State
  | [], s => some s
  | e :: es, s => (after e s).bind (afterGap es)

/-- `RD <reg>` after a gap: the value the read returned, and the state after it. -/
def readAfter (gap : List Event) (r : Reg) (s : State) : Option (Word × State) :=
  ((afterGap gap s).bind (after (read r))).bind fun t =>
    match t.reply with
    | .value v => some (v, t)
    | _ => none

/-! ### Pseudo-instructions that depend on what the host sees (R109) -/

/-- `POLL` (R109): repeat `RD STATUS` until bit 1 (DONE) of the value read is 1. The gaps are what happens before
its reads number 1, 2, …. The value of its last read and the state after it; none if every read the gaps allow
has DONE = 0: then the POLL has not ended. -/
def poll : List (List Event) → State → Option (Word × State)
  | [], _ => none
  | gap :: gaps, s =>
    match readAfter gap .status s with
    | some (v, t) => if v.getLsbD 1 then some (v, t) else poll gaps t
    | none => none

/-- `WAITIRQ` (R109): wait until `irq` = 1, while the events given happen, whatever they are (log
entry 18). The state in which `irq` is first 1; none if it is 0 throughout: then the wait has not ended. -/
def waitIrq : List Event → State → Option State
  | [], s => if irq s then some s else none
  | e :: es, s => if irq s then some s else (after e s).bind (waitIrq es)

/-- RES = Σ RESi·2^(64i) of the four values read (R109, R8). -/
def resNumber (v0 v1 v2 v3 : Word) : Nat :=
  v0.toNat + v1.toNat * 2 ^ 64 + v2.toNat * 2 ^ 128 + v3.toNat * 2 ^ 192

/-- `RDRES` (R109): `RD RES0` to `RD RES3`, each after its gap, and the number the four replies form. -/
def rdRes (g0 g1 g2 g3 : List Event) (s : State) : Option (Nat × State) :=
  (readAfter g0 (.res 0) s).bind fun r0 =>
  (readAfter g1 (.res 1) r0.2).bind fun r1 =>
  (readAfter g2 (.res 2) r1.2).bind fun r2 =>
  (readAfter g3 (.res 3) r2.2).bind fun r3 => some (resNumber r0.1 r1.1 r2.1 r3.1, r3.2)

end Sys2Proof.Machine.Script
end

