-- ==== Sys2Proof/Safety.lean ====
section
/-! DEFINITION. What holds of the machine in every safe run: the invariant the statements use. -/

namespace Sys2Proof.Safety

open Sys2Proof.Machine

/-- While the engine is not running a layer, nothing is raced and nothing hangs. -/
def NoLayer (s : State) : Prop := s.raced = false ∧ s.hung = false

/-- While a command runs, DONE, ERR and FAULT_ADDR hold what its acceptance put there (R234, R237). -/
def RunningStatus (s : State) : Prop := s.done = false ∧ s.err = 0 ∧ s.faultAddr = 0

/-- While a layer runs: `st.n` is the length of the latched region (R173), `st.o` fits in 66 bits (R46) and is
an offset of the walk while a butterfly is still to come (R173, R176), and the offset and the length bound the
butterflies completed (R193). -/
def LayerProgress (s : State) : Prop :=
  s.n = loopLength s.lat ∧ s.o < 2 ^ 66 ∧ (s.o < s.n.toNat → s.o ∈ offsets s.lat s.n) ∧
    32 * s.bflyCount.toNat ≤ s.o ∧ 32 * s.bflyCount.toNat < s.n.toNat + 32

/-- The invariant of the machine: the memory is canonical, ERR is 0, 1 or 2 (R27), and the running command's
record is as its acceptance and its engine steps made it. -/
structure Inv (s : State) : Prop where
  memory : s.mem.wf = true
  errCode : s.err = 0 ∨ s.err = 1 ∨ s.err = 2
  running : s.fsm ≠ .idle → RunningStatus s
  noLayer : s.fsm ≠ .nttBusy → NoLayer s
  layer : s.fsm = .nttBusy → LayerProgress s

end Sys2Proof.Safety
end

