-- ==== Sys2Proof/Certificates/Slice0/Obligations.lean ====
section
/-! DEFINITION. The statements for the provers: what the rules R<n> of the spec say of the machine. -/

namespace Sys2Proof.Statements

open Sys2Proof.Machine Sys2Proof.Config

/-! ### Words the statements are written in -/

/-- The host's write of word w to CMD. -/
def cmdEvent (w : Word) : Event := .bus (.write 0x00 8 w)

/-- The host's full 64-bit write of v at a byte offset. -/
def writeEvent (off : BitVec 8) (v : Word) : Event := .bus (.write off 8 v)

/-- The host's full 64-bit read at a byte offset. -/
def readEvent (off : BitVec 8) : Event := .bus (.read off 8)

/-- The state of `st.fsm` in which the engine runs this command (R43). -/
def runs : Instr → Fsm
  | .mul => .mulBusy
  | .nttLayer => .nttBusy

/-- enc(a) = a·2^256 mod p (R146). -/
def enc (a : Nat) : Nat := a * 2 ^ 256 % p

/-- A bit as a number. -/
def bit (b : Bool) : Nat := if b then 1 else 0

/-- The offsets of the host's read-write operand registers: the NTT registers, X and Y (R22). -/
def operandOffsets : List (BitVec 8) :=
  [0x40, 0x48, 0x50, 0x58, 0x60, 0x68, 0x70, 0x80, 0x88, 0x90, 0x98, 0xA0, 0xA8, 0xB0, 0xB8]

/-- What every offset of the register map reads as (R22, R232). -/
def readTable (s : State) : List (BitVec 8 × Word) :=
  [(0x00, 0),
   (0x08, BitVec.ofNat 64 (256 * s.err.toNat + 4 * bit s.ovr + 2 * bit s.done + bit (decide (s.fsm ≠ .idle)))),
   (0x10, BitVec.ofNat 64 (bit s.irqEn)), (0x18, s.bflyCount), (0x20, s.faultAddr),
   (0x28, 0), (0x30, 0), (0x38, 0),
   (0x40, s.ntt.src), (0x48, s.ntt.srcEnd), (0x50, s.ntt.dstOff), (0x58, s.ntt.dist), (0x60, s.ntt.twBase),
   (0x68, BitVec.ofNat 64 s.ntt.twShift.toNat), (0x70, s.ntt.twMask), (0x78, 0)] ++
  [(0x80, s.x.l0), (0x88, s.x.l1), (0x90, s.x.l2), (0x98, s.x.l3),
   (0xA0, s.y.l0), (0xA8, s.y.l1), (0xB0, s.y.l2), (0xB8, s.y.l3),
   (0xC0, s.res.l0), (0xC8, s.res.l1), (0xD0, s.res.l2), (0xD8, s.res.l3),
   (0xE0, 0), (0xE8, 0), (0xF0, 0), (0xF8, 0)]

/-- What a write of v does at every offset of the register map but CMD (R233, R237). -/
def writeTable (s : State) (v : Word) : List (BitVec 8 × State) :=
  [(0x08, { s with done := s.done && !v.getLsbD 1, ovr := s.ovr && !v.getLsbD 2 }),
   (0x10, { s with irqEn := v.getLsbD 0 }), (0x18, s), (0x20, s), (0x28, s), (0x30, s), (0x38, s),
   (0x40, { s with ntt := { s.ntt with src := v } }), (0x48, { s with ntt := { s.ntt with srcEnd := v } }),
   (0x50, { s with ntt := { s.ntt with dstOff := v } }), (0x58, { s with ntt := { s.ntt with dist := v } }),
   (0x60, { s with ntt := { s.ntt with twBase := v } }),
   (0x68, { s with ntt := { s.ntt with twShift := BitVec.ofNat 32 (v.toNat % 2 ^ 32) } }),
   (0x70, { s with ntt := { s.ntt with twMask := v } }), (0x78, s)] ++
  [(0x80, { s with x := { s.x with l0 := v } }), (0x88, { s with x := { s.x with l1 := v } }),
   (0x90, { s with x := { s.x with l2 := v } }), (0x98, { s with x := { s.x with l3 := v } }),
   (0xA0, { s with y := { s.y with l0 := v } }), (0xA8, { s with y := { s.y with l1 := v } }),
   (0xB0, { s with y := { s.y with l2 := v } }), (0xB8, { s with y := { s.y with l3 := v } }),
   (0xC0, s), (0xC8, s), (0xD0, s), (0xD8, s), (0xE0, s), (0xE8, s), (0xF0, s), (0xF8, s)]

/-- The five element accesses of the butterfly at `st.o`, in their order (R186): kind and address. -/
def accesses (s : State) : List (AccessKind × Word) :=
  [(.read, in1Addr s.lat s.o), (.read, in2Addr s.lat s.o), (.read, twAddr s.lat s.o),
   (.write, out1Addr s.lat s.o), (.write, out2Addr s.lat s.o)]

/-- Every access of the list completes. -/
def allComplete (P : Platform) (l : List (AccessKind × Word)) : Prop := ∀ x ∈ l, P.response x.1 x.2 = .completes

/-- A butterfly is the next engine step (R175 (a)). -/
def bflyNext (s : State) : Prop := s.fsm = .nttBusy ∧ s.hung = false ∧ s.o < s.n.toNat

/-- The completion step is the next engine step (R175 (b)). -/
def finishNext (s : State) : Prop := s.fsm = .nttBusy ∧ s.hung = false ∧ s.n.toNat ≤ s.o

/-- A bus-error abort at address a (R262) that leaves the memory m with d free values taken, of a layer that is
not raced. -/
def aborted (s : State) (a : Word) (m : Memory) (d : Nat) : State :=
  { s with faultAddr := a, err := 2, done := true, fsm := .idle, mem := m, draws := d }

/-- out1 and out2 that a butterfly with these inputs stores, free values numbered from k (R180 to R183, R188). -/
def outs (in1 in2 tw : Elem) (k : Nat) : Elem × Elem :=
  if in1.toNat < 4 * p ∧ tw.toNat < p then
    let a := if in1.toNat < 2 * p then in1.toNat else in1.toNat - 2 * p
    let t := montMul in2.toNat tw.toNat
    (BitVec.ofNat 256 (a + t), BitVec.ofNat 256 (a + 2 * p - t))
  else (any256 k, any256 (k + 1))

/-- How many free values a butterfly takes. -/
def outDraws (in1 tw : Elem) : Nat := if in1.toNat < 4 * p ∧ tw.toNat < p then 0 else 2

/-- One butterfly as a function of memory alone: the memory after it, and the number of the next free value. -/
def bflyMem (l : NttParams) (x : Memory × Nat) (o : Nat) : Memory × Nat :=
  let in1 := x.1.elem (in1Addr l o)
  let in2 := x.1.elem (in2Addr l o)
  let tw := x.1.elem (twAddr l o)
  ((x.1.setElem (out1Addr l o) (outs in1 in2 tw x.2).1).setElem (out2Addr l o) (outs in1 in2 tw x.2).2,
    x.2 + outDraws in1 tw)

/-- Free values in both destination elements of each butterfly of the list, one butterfly after another, out1
before out2, each a draw of its own numbered on from `x.2` (R12): the memory after, and the next number. -/
def freeDests (l : NttParams) (os : List Nat) (x : Memory × Nat) : Memory × Nat :=
  os.foldl (fun x o =>
    ((x.1.setElem (out1Addr l o) (any256 x.2)).setElem (out2Addr l o) (any256 (x.2 + 1)), x.2 + 2)) x

/-- The byte at b is a byte of a free value drawn from number d on and before number d'. -/
def freeByte (m : Memory) (d d' : Nat) (b : Word) : Prop :=
  ∃ k i, d ≤ k ∧ k < d' ∧ i < 32 ∧ m.read b.toNat = (any256 k).extractLsb' (8 * i) 8

/-- The bytes of a host access that starts at address a, each with its address modulo 2^64. -/
def addressed (a : Word) (data : List Byte) : List (Word × Byte) :=
  data.zipIdx.map fun x => (a + BitVec.ofNat 64 x.2, x.1)

/-- A platform on which every element access completes, and everything is ordinary memory. -/
def openPlatform (P : Platform) : Prop :=
  P.refused = [] ∧ P.silent = [] ∧ P.notMemory = [] ∧ P.windowInDataMemory = false

end Sys2Proof.Statements

open Sys2Proof Sys2Proof.Machine Sys2Proof.Config Sys2Proof.Safety Sys2Proof.Statements

/-! ### Encoding and dispatch -/

/-- R103, R105 and the words of `95_test_vectors.md` section 6: a few words decode as tabled. -/
def Obligations.CommandWordsDecode : Prop :=
  decode 0x0000000000000001 = .ok .mul ∧ decode 0x0000000000000002 = .ok .nttLayer ∧
    decode 0x0000000000000000 = .error .illegalOpcode ∧ decode 0x0000000000000003 = .error .illegalOpcode ∧
    decode 0x00000000000000FF = .error .illegalOpcode ∧ decode 0x0000000000000101 = .error .reservedNotZero ∧
    decode 0x8000000000000002 = .error .reservedNotZero

/-- R104, over every 64-bit word: the two valid words, as values and as match under mask; every other word is
invalid. -/
def Obligations.DecodeAcceptsTwoWords : Prop :=
  ∀ w : Word,
    (decode w = .ok .mul ↔ w = 0x0000000000000001) ∧
    (decode w = .ok .nttLayer ↔ w = 0x0000000000000002) ∧
    (decode w = .ok .mul ↔ w &&& 0xFFFFFFFFFFFFFFFF = 0x0000000000000001) ∧
    (decode w = .ok .nttLayer ↔ w &&& 0xFFFFFFFFFFFFFFFF = 0x0000000000000002) ∧
    ((∃ e, decode w = .error e) ↔ w ≠ 0x0000000000000001 ∧ w ≠ 0x0000000000000002)

/-- The encoder and the decoder agree, and the words are the opcode table's (R103). -/
def Obligations.DecodeOfEncode : Prop :=
  encode .mul = 0x0000000000000001 ∧ encode .nttLayer = 0x0000000000000002 ∧
    ∀ i, WellFormed.instr i = true → decode (encode i) = .ok i

/-- A step runs the decoded command: a write of a valid word to CMD while IDLE is exec of that command, after
the event is taken and acknowledged (R234, R240). -/
def Obligations.StepRunsDecodedCommand : Prop :=
  ∀ (s : State) (w : Word) (i : Instr) (rest : List Event),
    s.inputs = cmdEvent w :: rest → s.fsm = .idle → decode w = .ok i →
    step s = exec i { s with inputs := rest, reply := .written }

/-- A step runs the engine's command: an engine event while a command runs, or no event placed while one runs,
is exec of that command (R240, R241). That an engine event while IDLE does nothing, and that a running command
steps when no event is placed, is the model's own convention (log entry 6). -/
def Obligations.StepRunsEngine : Prop :=
  ∀ (s : State) (rest : List Event),
    (∀ i, s.fsm = runs i → s.inputs = .engine :: rest → step s = exec i { s with inputs := rest }) ∧
    (∀ i, s.fsm = runs i → s.inputs = [] → step s = exec i s) ∧
    (s.fsm = .idle → s.inputs = .engine :: rest → step s = .next { s with inputs := rest })

/-- R234, whole: what accepting each of the two commands does, in one event; every field not named keeps its
value, the memory too. `hung` and `raced` are the model's own (log entries 5, 8, 9). -/
def Obligations.AcceptanceLatchesOperands : Prop :=
  ∀ (s : State) (rest : List Event), s.fsm = .idle →
    (s.inputs = cmdEvent 1 :: rest →
      step s = .next { s with
        inputs := rest, reply := .written, done := false, err := 0, faultAddr := 0
        lx := (s.x.l3 ++ s.x.l2 ++ s.x.l1 ++ s.x.l0).cast rfl
        ly := (s.y.l3 ++ s.y.l2 ++ s.y.l1 ++ s.y.l0).cast rfl
        fsm := .mulBusy }) ∧
    (s.inputs = cmdEvent 2 :: rest →
      step s = .next { s with
        inputs := rest, reply := .written, done := false, err := 0, faultAddr := 0
        lat := s.ntt, o := 0, bflyCount := 0, fsm := .nttBusy
        n := if s.ntt.src < s.ntt.srcEnd then s.ntt.srcEnd - s.ntt.src else 0
        hung := false
        raced := touchesNotMemory s.platform s.ntt
          (if s.ntt.src < s.ntt.srcEnd then s.ntt.srcEnd - s.ntt.src else 0) })

/-- Every command completes its acceptance from every IDLE state (R234): exec answers a next state in which
the command runs, with the registers, the status bits not named and all of memory unchanged. -/
def Obligations.IdleCommandStarts : Prop :=
  ∀ (i : Instr) (s : State), s.fsm = .idle →
    ∃ t, exec i s = .next t ∧ t.fsm = runs i ∧ t.done = false ∧ t.err = 0 ∧ t.faultAddr = 0 ∧
      t.ovr = s.ovr ∧ t.irqEn = s.irqEn ∧ t.ntt = s.ntt ∧ t.x = s.x ∧ t.y = s.y ∧ t.res = s.res ∧ t.mem = s.mem ∧
      t.bflyCount = (match i with | .mul => s.bflyCount | .nttLayer => 0)

/-- R235: an invalid word while IDLE is refused; nothing else changes, and `irq` rises if it is enabled. -/
def Obligations.IllegalWordRefused : Prop :=
  ∀ (s : State) (w : Word) (rest : List Event) (e : DecodeError),
    s.inputs = cmdEvent w :: rest → s.fsm = .idle → decode w = .error e →
    step s = .next { s with inputs := rest, reply := .written, err := 1, done := true } ∧
      irq { s with inputs := rest, reply := .written, err := 1, done := true } = s.irqEn

/-- R236: any word written to CMD while busy only sets OVR; the running command's next engine step is the one
it would have made. -/
def Obligations.BusyCommandWriteOnlySetsOvr : Prop :=
  ∀ (s : State) (w : Word) (rest : List Event), s.inputs = cmdEvent w :: rest → s.fsm ≠ .idle →
    step s = .next { s with inputs := rest, reply := .written, ovr := true } ∧
      ∀ u, engineStep s = .next u → engineStep { s with ovr := true } = .next { u with ovr := true }

/-! ### The register window -/

/-- R232: a valid read returns the register's value and changes no state but the reply. -/
def Obligations.RegisterReads : Prop :=
  ∀ (s : State) (rest : List Event) (r : BitVec 8 × Word), r ∈ readTable s → s.inputs = readEvent r.1 :: rest →
    step s = .next { s with inputs := rest, reply := .value r.2 }

/-- R233 and R237 but for CMD: a valid write does to each offset what the rule lists, idle or busy. -/
def Obligations.RegisterWrites : Prop :=
  ∀ (s : State) (v : Word) (rest : List Event) (r : BitVec 8 × State),
    r ∈ writeTable { s with inputs := rest, reply := .written } v → s.inputs = writeEvent r.1 v :: rest →
    step s = .next r.2

/-- R231: a transaction that is not a full 64-bit access at a multiple of 8 gets an error response and changes
no state; an invalid read returns 0 with it. -/
def Obligations.InvalidTransactionChangesNothing : Prop :=
  ∀ (s : State) (off : BitVec 8) (bytes : Nat) (v : Word) (rest : List Event), bytes ≠ 8 ∨ off.toNat % 8 ≠ 0 →
    (s.inputs = .bus (.write off bytes v) :: rest →
      step s = .next { s with inputs := rest, reply := .errorResponse 0 }) ∧
    (s.inputs = .bus (.read off bytes) :: rest →
      step s = .next { s with inputs := rest, reply := .errorResponse 0 })

/-- R237: a write of v to STATUS; while busy, DONE being 0, it changes nothing except OVR when v[2] = 1;
clearing DONE lowers `irq`. -/
def Obligations.StatusWriteOneToClear : Prop :=
  ∀ (s : State) (v : Word) (rest : List Event), s.inputs = writeEvent 0x08 v :: rest →
    ∃ t, step s = .next t ∧
      t = { s with
        inputs := rest, reply := .written, done := s.done && !v.getLsbD 1, ovr := s.ovr && !v.getLsbD 2 } ∧
      (v.getLsbD 1 = true → irq t = false) ∧
      (s.fsm ≠ .idle → s.done = false → v.getLsbD 2 = false →
        t = { s with inputs := rest, reply := .written })

/-- R28: the reserved bits of a STATUS read are 0 and the others are BUSY, DONE, OVR and ERR. -/
def Obligations.StatusLayout : Prop :=
  ∀ s : State,
    (statusWord s).extractLsb' 12 52 = 0 ∧ (statusWord s).extractLsb' 8 4 = s.err ∧
    (statusWord s).extractLsb' 3 5 = 0 ∧ (statusWord s).getLsbD 2 = s.ovr ∧ (statusWord s).getLsbD 1 = s.done ∧
    (statusWord s).getLsbD 0 = decide (s.fsm ≠ .idle)

/-- R238: a host write to an operand register while a command runs updates the register at once and has no
effect on that command's engine step. -/
def Obligations.OperandWriteWhileBusy : Prop :=
  ∀ (i : Instr) (s t : State) (off : BitVec 8) (v : Word) (r : Reg),
    off ∈ operandOffsets → regAt off = some r → s.fsm = runs i → exec i s = .next t →
    readReg (writeReg s v r) r = (if off = 0x68 then v &&& 0xFFFFFFFF else v) ∧
      exec i (writeReg s v r) = .next (writeReg t v r)

/-- R267 and R268: when `irq` rises and falls, and that while it is 1 the block asserts the one line of IRQ_ROUTE,
with its priority, and else none. That IRQ_ROUTE does not change is the model's choice (log entry 4). -/
def Obligations.IrqRisesAndFalls : Prop :=
  ∀ (s t : State) (rest : List Event), step s = .next t →
    (s.fsm ≠ .idle → t.fsm = .idle → s.inputs = .engine :: rest → irq t = s.irqEn) ∧
    (s.inputs = writeEvent 0x10 1 :: rest → irq t = s.done) ∧
    (s.inputs = writeEvent 0x10 0 :: rest → irq t = false) ∧
    (s.inputs = writeEvent 0x08 2 :: rest → irq t = false) ∧
    (s.inputs = .reset :: rest → irq t = false) ∧
    (s.fsm = .idle → s.inputs = cmdEvent 1 :: rest ∨ s.inputs = cmdEvent 2 :: rest → irq t = false) ∧
    (irq t = true →
      hostIrqLines t = [{ line := s.platform.irqRoute.line, priority := s.platform.irqRoute.priority }]) ∧
    (irq t = false → hostIrqLines t = [])

/-! ### Reset -/

/-- R291: after a reset event, in whatever state it comes, every offset of the window reads 0, the engine is
IDLE and `irq` is 0; and the hidden fields are not read before an acceptance writes them. -/
def Obligations.ResetEventValues : Prop :=
  ∀ (s : State) (rest : List Event), s.inputs = .reset :: rest →
    ∃ t, step s = .next t ∧ t.fsm = .idle ∧ irq t = false ∧ (∀ off, readOffset t off = 0) ∧
      (t.done, t.ovr, t.err, t.irqEn) = (false, false, 0, false) ∧
      (∀ lx ly, exec .mul { t with lx := lx, ly := ly } = exec .mul t) ∧
      (∀ lat o n, exec .nttLayer { t with lat := lat, o := o, n := n } = exec .nttLayer t)

/-- R292 and R293: a reset does not change data memory, except that while a layer runs with `st.o < st.n` the
two destination elements of the butterfly at `st.o` hold free values, and that a raced layer's write footprint
does (R85). The statement holds for every value the draws have. In a state that meets the invariant no byte
outside the write footprint changes. When a raced layer's footprint is lost, and that the two elements are free
whether or not writing them is admitted, is the model's form (log entry 8). -/
def Obligations.ResetKeepsMemory : Prop :=
  ∀ (s : State) (rest : List Event), s.inputs = .reset :: rest →
    ∃ t, step s = .next t ∧
      (s.fsm ≠ .nttBusy → t.mem = s.mem) ∧
      (s.fsm = .nttBusy → s.raced = false → s.n.toNat ≤ s.o → t.mem = s.mem) ∧
      (s.fsm = .nttBusy → s.raced = false → s.o < s.n.toNat →
        (t.mem, t.draws) = freeDests s.lat [s.o] (s.mem, s.draws)) ∧
      (s.fsm = .nttBusy → s.raced = true →
        (t.mem, t.draws) =
          freeDests s.lat ((if s.o < s.n.toNat then [s.o] else []) ++ offsets s.lat s.n) (s.mem, s.draws)) ∧
      (s.fsm = .nttBusy → s.raced = false → ∀ b : Word,
        inElem (out1Addr s.lat s.o) b = false → inElem (out2Addr s.lat s.o) b = false →
        t.mem.read b.toNat = s.mem.read b.toNat) ∧
      (s.fsm = .nttBusy → Inv s → ∀ b : Word, inWriteFootprint s.lat s.n b = false →
        t.mem.read b.toNat = s.mem.read b.toNat) ∧
      (s.fsm = .nttBusy → s.mem.wf = true → s.o < s.n.toNat → ∀ b : Word,
        inElem (out1Addr s.lat s.o) b = true ∨ inElem (out2Addr s.lat s.o) b = true →
        freeByte t.mem s.draws t.draws b) ∧
      (s.fsm = .nttBusy → s.mem.wf = true → s.raced = true → ∀ b : Word,
        inWriteFootprint s.lat s.n b = true → freeByte t.mem s.draws t.draws b)

/-! ### The Field Primitive -/

/-- R135: step 2's factor is the low limb times mprime, and step 3 clears the low limb. -/
def Obligations.RoundClearsLowLimb : Prop :=
  ∀ val : Nat,
    montFactor val = val % 2 ^ 64 * (2 ^ 64 - 1) % 2 ^ 64 ∧ (val + montFactor val * p) % 2 ^ 64 = 0

/-- R137 and R138: with y < p every round starts below 2p and no sum leaves the five limbs; the result is
below 2p and may be p or more even when x < p. -/
def Obligations.MontMulBounds : Prop :=
  (∀ x y : Nat, x < 2 ^ 256 → y < p →
    montVal x y 0 = 0 ∧ (∀ k ≤ 4, montVal x y k < 2 * p) ∧
      (∀ k < 4, montSum y (montVal x y k) (limbOf x k) < 2 ^ 65 * p) ∧ montMul x y < 2 * p) ∧
    2 ^ 65 * p < 2 ^ 317 ∧
    montMul (p - 32) (p - 1) = p + 0x0000000000000011000000000000241fffffffffffffffffffffffffffffffff

/-- R139, whole: the closed form, the constant, the uniqueness of m and its round values, and the symmetry. -/
def Obligations.MontMulClosedForm : Prop :=
  let pinv := 0xf7ffffffffffffef000000000000000000000000000000000000000000000001
  p * pinv % 2 ^ 256 = 1 ∧
  ∀ x y : Nat, x < 2 ^ 256 → y < p →
    let m := (2 ^ 256 - x * y * pinv % 2 ^ 256) % 2 ^ 256
    (x * y + m * p) % 2 ^ 256 = 0 ∧ montMul x y = (x * y + m * p) / 2 ^ 256 ∧
    (∀ m' < 2 ^ 256, (x * y + m' * p) % 2 ^ 256 = 0 → m' = m) ∧
    m = montFactor (montVal x y 0 + limbOf x 0 * y) + montFactor (montVal x y 1 + limbOf x 1 * y) * 2 ^ 64 +
      montFactor (montVal x y 2 + limbOf x 2 * y) * 2 ^ 128 + montFactor (montVal x y 3 + limbOf x 3 * y) * 2 ^ 192 ∧
    (x < p → montMul x y = montMul y x)

/-- R140: MontMul divides the product by 2^256 modulo p; on Montgomery forms it multiplies the residues. -/
def Obligations.MontMulCongruence : Prop :=
  (∀ x y : Nat, x < 2 ^ 256 → y < p → montMul x y * 2 ^ 256 % p = x * y % p) ∧
    ∀ a b : Nat, montMul (enc a) (enc b) % p = enc (a * b)

/-- R146, whole: the source's testable properties. -/
def Obligations.MontMulProperties : Prop :=
  ∀ a b : Nat, a < p → b < p →
    (montMul (enc a) (enc b) % p = enc (a * b % p) ∧ montMul (enc a) (enc b) < 2 * p ∧
      (montMul (enc a) (enc b) = enc (a * b % p) ↔ montMul (enc a) (enc b) < p)) ∧
    montMul (enc 1) (enc a) % p = enc a % p ∧
    (∀ x < 2 ^ 256, montMul x (enc 0) = 0 ∧ montMul x 0 = 0) ∧
    (∀ x y, x < p → y < p → montMul x y = montMul y x)

/-- R147 and R148: encode and decode through MUL. -/
def Obligations.MontMulEncodeDecode : Prop :=
  let r2 := 0x07ffd4ab5e008810ffffffffff6f800000000001330ffffffffffd737e000401
  r2 = 2 ^ 256 * 2 ^ 256 % p ∧
  (∀ a < 2 ^ 256, montMul a r2 % p = enc a ∧ montMul a r2 < 2 * p) ∧
  ∀ v < 2 ^ 256,
    montMul v 1 * 2 ^ 256 % p = v % p ∧ montMul v 1 ≤ p ∧ (v < p → montMul v 1 < p) ∧
      (montMul v 1 = p → v ≠ 0 ∧ v % p = 0) ∧ (v ≠ 0 → v % p = 0 → montMul v 1 = p)

/-- MUL completes from every state in which the engine runs it (R143): RES is the four limbs of MontMul of
the latched operands when `st.ly < p`, and of a free value when not (R141: the statement holds for every such
value); DONE, ERR, IDLE; nothing else changes. -/
def Obligations.MulCompletes : Prop :=
  ∀ s : State, s.fsm = .mulBusy →
    let r : Elem := if s.ly.toNat < p then BitVec.ofNat 256 (montMul s.lx.toNat s.ly.toNat) else any256 s.draws
    exec .mul s = .next { s with
      res := { l0 := r.extractLsb' 0 64, l1 := r.extractLsb' 64 64, l2 := r.extractLsb' 128 64,
               l3 := r.extractLsb' 192 64 }
      err := 0, done := true, fsm := .idle
      draws := if s.ly.toNat < p then s.draws else s.draws + 1 }

/-- The number RES holds after a MUL with `st.ly < p` is MontMul of the latched operands, below 2p (R41, R137,
R143): no limb is lost. -/
def Obligations.MulResultNumber : Prop :=
  ∀ s t : State, s.fsm = .mulBusy → s.ly.toNat < p → exec .mul s = .next t →
    t.res.l0.toNat + t.res.l1.toNat * 2 ^ 64 + t.res.l2.toNat * 2 ^ 128 + t.res.l3.toNat * 2 ^ 192 =
        montMul s.lx.toNat s.ly.toNat ∧
      montMul s.lx.toNat s.ly.toNat < 2 * p ∧
      montMul s.lx.toNat s.ly.toNat * 2 ^ 256 % p = s.lx.toNat * s.ly.toNat % p

/-- R144, MUL's frame: whatever state it meets, it changes no memory, no NTT register, no BFLY_COUNT and no
NTT hidden state, and does not read them; of the rest it changes what its acceptance (IDLE), its engine step
(MUL_BUSY) or an overrun (NTT_BUSY) changes. -/
def Obligations.MulTouchesNothingElse : Prop :=
  ∀ s t : State, exec .mul s = .next t →
    (t.mem = s.mem ∧ t.ntt = s.ntt ∧ t.bflyCount = s.bflyCount ∧ t.lat = s.lat ∧ t.o = s.o ∧ t.n = s.n ∧
      t.x = s.x ∧ t.y = s.y ∧ t.irqEn = s.irqEn ∧ t.hung = s.hung ∧ t.raced = s.raced ∧ t.pending = s.pending ∧
      t.reply = s.reply ∧ t.platform = s.platform ∧ t.inputs = s.inputs) ∧
    (s.fsm = .idle → t.ovr = s.ovr ∧ t.res = s.res ∧ t.draws = s.draws) ∧
    (s.fsm = .mulBusy → t.ovr = s.ovr ∧ t.faultAddr = s.faultAddr ∧ t.lx = s.lx ∧ t.ly = s.ly) ∧
    (s.fsm = .nttBusy → t = { s with ovr := true }) ∧
    ∀ m ntt c lat o n, exec .mul { s with mem := m, ntt := ntt, bflyCount := c, lat := lat, o := o, n := n } =
      .next { t with mem := m, ntt := ntt, bflyCount := c, lat := lat, o := o, n := n }

/-- R145 and R41: RES changes only in the engine step of a MUL, which writes all four registers, or by reset. -/
def Obligations.ResOnlyFromMul : Prop :=
  ∀ s t : State, step s = .next t → t.res ≠ s.res →
    (s.fsm = .mulBusy ∧ t.fsm = .idle ∧ t.done = true ∧ t.res = Limbs.ofElem (mulResult s.lx s.ly s.draws)) ∨
      s.inputs.head? = some .reset

/-! ### The walk and the addresses -/

/-- R176: Advance, and the width `st.o` needs. -/
def Obligations.AdvanceRule : Prop :=
  ∀ o d : Nat,
    ((o + 32) &&& d ≠ 0 → advance o d = o + 32 + d) ∧ ((o + 32) &&& d = 0 → advance o d = o + 32) ∧
      (o < 2 ^ 64 → d < 2 ^ 64 → advance o d < 2 ^ 66)

/-- R177, whole: what Advance visits, for a power-of-two distance of at least one element, for 0, and for
every other value. -/
def Obligations.WalkVisits : Prop :=
  (∀ k n : Nat, walk (32 * 2 ^ k) n ((n + 31) / 32) 0 =
    ((List.range ((n + 31) / 32)).map (32 * ·)).filter fun o => o &&& (32 * 2 ^ k) == 0) ∧
  (∀ k i : Nat, 32 * i &&& (32 * 2 ^ k) = 0 ↔ ∃ c j, j < 2 ^ k ∧ 32 * i = 2 * (32 * 2 ^ k) * c + 32 * j) ∧
  (∀ (l : NttParams) (k c j : Nat), l.dist.toNat = 32 * 2 ^ k → j < 2 ^ k →
    in1Addr l (2 * (32 * 2 ^ k) * c + 32 * j) =
      l.src - l.dist + BitVec.ofNat 64 (2 * (32 * 2 ^ k) * c + 32 * j) ∧
    in2Addr l (2 * (32 * 2 ^ k) * c + 32 * j) =
      l.src - l.dist + BitVec.ofNat 64 (2 * (32 * 2 ^ k) * c + 32 * 2 ^ k + 32 * j)) ∧
  (∀ n : Nat, walk 0 n ((n + 31) / 32) 0 = (List.range ((n + 31) / 32)).map (32 * ·)) ∧
  (∀ (l : NttParams) (o : Nat), l.dist = 0 → in1Addr l o = in2Addr l o) ∧
  (∀ o d : Nat, o + 32 ≤ advance o d ∧ advance o d ≤ o + 32 + d) ∧
  (∀ n : Nat, walk 16 n ((n + 31) / 32) 0 = (List.range ((n + 31) / 32)).map (32 * ·)) ∧
  (∀ i : Nat, advance (128 * i) 96 = 128 * (i + 1))

/-- R195: with a power-of-two distance, both conventions for NTT_END give exactly the C·d/32 butterflies of the
C whole chunks, chunk by chunk. -/
def Obligations.EndConventions : Prop :=
  ∀ (l : NttParams) (k C A : Nat),
    let d := 32 * 2 ^ k
    l.dist.toNat = d → l.src.toNat = A + d → A + 2 * d * C < l.srcEnd.toNat + 32 → l.srcEnd.toNat ≤ A + 2 * d * C + d →
    offsets l (loopLength l) =
        (List.range C).flatMap (fun c => (List.range (2 ^ k)).map fun j => 2 * d * c + 32 * j) ∧
      (offsets l (loopLength l)).length = C * d / 32

/-- R178 and R179: a shift of 64 or more reads the table's first entry; the per-position and the per-chunk
settings give the twiddle offsets the rule says. -/
def Obligations.TwiddleAddress : Prop :=
  ∀ l : NttParams,
    (∀ o < 2 ^ 64, 64 ≤ l.twShift.toNat → twAddr l o = l.twBase) ∧
    (∀ k c j : Nat, k ≤ 58 → j < 2 ^ k → l.twShift = 0 → l.twMask.toNat = 32 * 2 ^ k - 1 →
      twAddr l (2 * (32 * 2 ^ k) * c + 32 * j) = l.twBase + BitVec.ofNat 64 (32 * j)) ∧
    (∀ k c j t : Nat, k ≤ 58 → j < 2 ^ k → t ≤ 59 → l.twShift.toNat = k + 1 → l.twMask.toNat = 32 * (2 ^ t - 1) →
      twAddr l (2 * (32 * 2 ^ k) * c + 32 * j) = l.twBase + BitVec.ofNat 64 (32 * (c % 2 ^ t)))

/-- R191: in place (NTT_DSTOFF = 0) a butterfly writes the two elements it reads, and for a power-of-two
distance no other butterfly of the command reads them as in1 or in2. -/
def Obligations.InPlacePairsAreDisjoint : Prop :=
  ∀ (l : NttParams) (n : Word) (k o o' : Nat), l.dstOff = 0 → l.dist.toNat = 32 * 2 ^ k →
    o ∈ offsets l n → o' ∈ offsets l n → o ≠ o' →
    out1Addr l o = in1Addr l o ∧ out2Addr l o = in2Addr l o ∧
      ∀ b, inElem (out1Addr l o) b = true ∨ inElem (out2Addr l o) b = true →
        inElem (in1Addr l o') b = false ∧ inElem (in2Addr l o') b = false

/-! ### Data memory -/

/-- R73: the element at a is one little-endian number, and byte a + 8i + k holds bits 8k+7 to 8k of limb i. -/
def Obligations.ElementIsLittleEndian : Prop :=
  ∀ (m : Memory) (a : Word),
    (m.elem a).toNat =
        ((List.range 32).map fun k => (m.read (a + BitVec.ofNat 64 k).toNat).toNat * 2 ^ (8 * k)).sum ∧
      ∀ i < 4, ∀ k < 8,
        ((m.elem a).extractLsb' (64 * i) 64).extractLsb' (8 * k) 8 =
          m.read (a + BitVec.ofNat 64 (8 * i + k)).toNat

/-- Canonical memories with the same bytes are equal: no two states differ only in how memory is listed. The
form is the model's own (log entry 2); the byte space is R70's. -/
def Obligations.CanonicalMemoryIsUnique : Prop :=
  ∀ m m' : Memory, m.wf = true → m'.wf = true → (∀ a : Word, m.read a.toNat = m'.read a.toNat) → m = m'

/-- R71 and R80, read with R75 (log entries 14 and 17): an element access completes only if MemAdmit holds for it
and for each of its 32 bytes and none lies in the block's own window; otherwise it gets an error response, unless
no response comes at all (R241). -/
def Obligations.AdmissionRule : Prop :=
  ∀ (P : Platform) (kind : AccessKind) (a : Word), P.silentElem kind a = false →
    (P.response kind a = .completes ↔
      P.memAdmit a 32 kind = true ∧ ∀ b, inElem a b = true →
        P.memAdmit b 1 kind = true ∧ ¬(P.windowInDataMemory = true ∧ (b - P.base).toNat < 256)) ∧
    (P.response kind a = .completes ∨ P.response kind a = .error)

/-- The host's data-memory accesses while no layer runs (R49, R83, R108): a write puts each byte in place and
changes no other byte; a read of ordinary memory returns the bytes and changes nothing. That MemAdmit does not
apply to the host's own accesses is the model's choice (log entry 4). -/
def Obligations.HostMemoryAccess : Prop :=
  ∀ (s : State) (a : Word) (rest : List Event), s.fsm ≠ .nttBusy → s.mem.wf = true →
    (∀ data : List Byte, data.length ≤ 2 ^ 64 → s.inputs = .hostWrite a data :: rest →
      ∃ m, step s = .next { s with inputs := rest, reply := .memWritten, mem := m } ∧
        (∀ i < data.length, some (m.read (a + BitVec.ofNat 64 i).toNat) = data[i]?) ∧
        ∀ b : Word, (∀ i < data.length, b ≠ a + BitVec.ofNat 64 i) → m.read b.toNat = s.mem.read b.toNat) ∧
    (∀ k : Nat, s.platform.notMemory = [] → s.inputs = .hostRead a k :: rest →
      step s = .next { s with
        inputs := rest
        reply := .memData ((List.range k).map fun i => s.mem.read (a + BitVec.ofNat 64 i).toNat) })

/-! ### The butterfly and the layer -/

/-- R184, whole: the bounds and the residues of a butterfly with legal data, for every in2 (R189). -/
def Obligations.LazyButterflyBounds : Prop :=
  4 * p < 2 ^ 254 ∧
  ∀ in1 in2 tw : Nat, in1 < 4 * p → in2 < 2 ^ 256 → tw < p →
    lazyReduce2p in1 < 2 * p ∧ montMul in2 tw < 2 * p ∧ bflyOut1 in1 in2 tw < 4 * p ∧
    0 < bflyOut2 in1 in2 tw ∧ bflyOut2 in1 in2 tw < 4 * p ∧
    bflyOut1 in1 in2 tw * 2 ^ 256 % p = (in1 * 2 ^ 256 + in2 * tw) % p ∧
    (bflyOut2 in1 in2 tw * 2 ^ 256 + in2 * tw) % p = in1 * 2 ^ 256 % p ∧
    (∀ A B T : Nat, in1 % p = enc A → in2 % p = enc B → tw = enc T →
      bflyOut1 in1 in2 tw % p = enc (A + T * B) ∧ (bflyOut2 in1 in2 tw + enc (T * B)) % p = enc A)

/-- R185: the 256-bit datapath gives exactly the integers, and bit 255 is the borrow of the select. -/
def Obligations.DatapathMatchesIntegers : Prop :=
  ∀ in1 in2 tw : Elem, in1.toNat < 4 * p → tw.toNat < p →
    let p2 : Elem := BitVec.ofNat 256 (2 * p)
    let a : Elem := if (in1 - p2).getLsbD 255 then in1 else in1 - p2
    let t : Elem := BitVec.ofNat 256 (montMul in2.toNat tw.toNat)
    ((in1 - p2).getLsbD 255 = true ↔ in1.toNat < 2 * p) ∧ a.toNat = lazyReduce2p in1.toNat ∧
    (a + t).toNat = bflyOut1 in1.toNat in2.toNat tw.toNat ∧
    (a + (0 - t) + p2).toNat = bflyOut2 in1.toNat in2.toNat tw.toNat

/-- NTT_LAYER's butterfly step completes wherever its five accesses do (R174, R175 (a), R178, R180 to R183,
R186 to R188): the two outputs are stored, out1 first, BFLY_COUNT and `st.o` advance, nothing else changes. With
illegal data the outputs are free values, and the statement holds for every such value. -/
def Obligations.ButterflyCompletes : Prop :=
  ∀ s : State, bflyNext s →
    let a2 := s.lat.src + BitVec.ofNat 64 s.o
    let a1 := a2 - s.lat.dist
    let tw := s.lat.twBase + BitVec.ofNat 64 ((s.o >>> s.lat.twShift.toNat) &&& s.lat.twMask.toNat)
    let d1 := a1 + s.lat.dstOff
    let d2 := a2 + s.lat.dstOff
    let out := outs (s.mem.elem a1) (s.mem.elem a2) (s.mem.elem tw) s.draws
    allComplete s.platform [(.read, a1), (.read, a2), (.read, tw), (.write, d1), (.write, d2)] →
    exec .nttLayer s = .next { s with
      mem := (s.mem.setElem d1 out.1).setElem d2 out.2
      bflyCount := s.bflyCount + 1
      o := if (s.o + 32) &&& s.lat.dist.toNat ≠ 0 then s.o + 32 + s.lat.dist.toNat else s.o + 32
      draws := s.draws + outDraws (s.mem.elem a1) (s.mem.elem tw) }

/-- The completion step completes (R192): DONE, ERR = 0, IDLE, and no memory access of the engine. A raced layer
ends with free values in every destination element of its walk, so that every byte of its write footprint holds
any value (R85; that this happens at the end is the model's form, log entry 8). The statement holds for every
value the draws have. That `st.o` and `st.n` keep their values is the model's choice (log entry 16). -/
def Obligations.LayerFinishes : Prop :=
  ∀ s : State, finishNext s →
    let x := freeDests s.lat (offsets s.lat s.n) (s.mem, s.draws)
    (s.raced = false → exec .nttLayer s = .next { s with err := 0, done := true, fsm := .idle }) ∧
    (s.raced = true →
      exec .nttLayer s =
        .next { s with err := 0, done := true, fsm := .idle, raced := false, mem := x.1, draws := x.2 }) ∧
    (s.raced = true → s.mem.wf = true → ∀ b : Word, inWriteFootprint s.lat s.n b = true →
      freeByte x.1 s.draws x.2 b)

/-- R262 and R266: the first access not admitted, in the order of R186, aborts the command. What the accesses
before it did stands; a failing read changes no memory; of a failing write, the bytes admitted hold a free value
(the statement holds for every such value) and the others are unchanged; BFLY_COUNT, `st.o`, RES and OVR are
unchanged. For a layer not raced (a raced one: RacedLayerEnd). Which bytes are admitted is read byte by byte:
MemAdmit of the one-byte access, and not the block's own window (R71, R80; the model's reading, log entry 14). That
`st.n` is unchanged too is the model's choice (log entry 16). -/
def Obligations.BusErrorAborts : Prop :=
  ∀ s : State, bflyNext s → s.raced = false →
    let P := s.platform
    let A := accesses s
    let d1 := out1Addr s.lat s.o
    let d2 := out2Addr s.lat s.o
    let in1 := s.mem.elem (in1Addr s.lat s.o)
    let tw := s.mem.elem (twAddr s.lat s.o)
    let d := s.draws + outDraws in1 tw
    let m1 := s.mem.setElem d1 (outs in1 (s.mem.elem (in2Addr s.lat s.o)) tw s.draws).1
    (∀ (k : Nat) (x : AccessKind × Word), k < 3 → A[k]? = some x → allComplete P (A.take k) →
      P.response x.1 x.2 = .error → exec .nttLayer s = .next (aborted s x.2 s.mem s.draws)) ∧
    (allComplete P (A.take 3) → P.response .write d1 = .error →
      exec .nttLayer s =
        .next (aborted s d1 (s.mem.writeBytes (P.admitsByte .write) d1 (any256 d).toNat 32) (d + 1))) ∧
    (allComplete P (A.take 4) → P.response .write d2 = .error →
      exec .nttLayer s =
        .next (aborted s d2 (m1.writeBytes (P.admitsByte .write) d2 (any256 d).toNat 32) (d + 1))) ∧
    ∀ b : Word, P.admitsByte .write b = false → ∀ (m : Memory) (a : Word) (v : Nat),
      (m.writeBytes (P.admitsByte .write) a v 32).read b.toNat = m.read b.toNat

/-- An access that never gets a response leaves the engine waiting for ever (R241): BUSY stays 1, nothing the
host can read changes, and every later engine step leaves the state as it is. How the state records the wait is
the model's (log entry 5). -/
def Obligations.SilentMemoryHangs : Prop :=
  (∀ (s : State) (k : Nat) (x : AccessKind × Word), bflyNext s → (accesses s)[k]? = some x →
    allComplete s.platform ((accesses s).take k) → s.platform.response x.1 x.2 = .never →
    ∃ t, exec .nttLayer s = .next t ∧ t.hung = true ∧ t.fsm = .nttBusy ∧ t.o = s.o ∧
      (∀ off, readOffset t off = readOffset s off)) ∧
  ∀ s : State, s.fsm = .nttBusy → s.hung = true → exec .nttLayer s = .next s

/-- R194: NTT_END ≤ NTT_SRC gives an empty command: no memory access, done in its first engine step, ERR = 0
and BFLY_COUNT = 0. -/
def Obligations.EmptyLayer : Prop :=
  ∀ s : State, s.fsm = .idle → s.ntt.srcEnd ≤ s.ntt.src →
    ∃ t u, exec .nttLayer s = .next t ∧ t.n = 0 ∧ t.mem = s.mem ∧ exec .nttLayer t = .next u ∧
      u.fsm = .idle ∧ u.done = true ∧ u.err = 0 ∧ u.bflyCount = 0 ∧ u.mem = s.mem

/-- NTT_LAYER's frame, in every state it meets: what each of its events leaves unchanged, and every byte of
memory outside the two destination elements (and, where a raced layer ends, outside its write footprint). That
`st.o` and `st.n` keep their values at the end is the model's choice (log entry 16). -/
def Obligations.NttLayerFrame : Prop :=
  ∀ s t : State, exec .nttLayer s = .next t →
    (t.ntt = s.ntt ∧ t.x = s.x ∧ t.y = s.y ∧ t.res = s.res ∧ t.irqEn = s.irqEn ∧ t.lx = s.lx ∧ t.ly = s.ly ∧
      t.pending = s.pending ∧ t.reply = s.reply ∧ t.platform = s.platform ∧ t.inputs = s.inputs) ∧
    (s.fsm ≠ .mulBusy → t.ovr = s.ovr) ∧
    (s.fsm = .mulBusy → t = { s with ovr := true }) ∧
    (s.fsm = .idle → t.mem = s.mem ∧ t.draws = s.draws) ∧
    (s.fsm = .nttBusy → t.lat = s.lat ∧ t.n = s.n ∧
      (t.fsm = .nttBusy → t.done = s.done ∧ t.err = s.err ∧ t.faultAddr = s.faultAddr ∧ t.raced = s.raced) ∧
      (t.fsm = .idle → t.bflyCount = s.bflyCount ∧ t.o = s.o ∧ t.hung = s.hung) ∧
      (s.n.toNat ≤ s.o → s.raced = false → t.mem = s.mem) ∧
      ∀ b : Word, (s.o < s.n.toNat → inElem (out1Addr s.lat s.o) b = false ∧ inElem (out2Addr s.lat s.o) b = false) →
        (s.raced = true → t.fsm = .idle → inWriteFootprint s.lat s.n b = false) →
        t.mem.read b.toNat = s.mem.read b.toNat)

/-- R190, R303 and R12: the engine's step does not depend on data or on free values: with any other memory it
ends in the same state but for memory and the count of free values. -/
def Obligations.StepsIndependentOfData : Prop :=
  ∀ (s t : State) (m : Memory) (d : Nat), exec .nttLayer s = .next t →
    ∃ m' d', exec .nttLayer { s with mem := m, draws := d } = .next { t with mem := m', draws := d' }

/-- R85: the host's data-memory accesses of any length while a layer runs, byte by byte. A written byte of the
footprint is held back, every other written byte is stored at once; a read byte of the write footprint is a free
value (as is one that is not ordinary memory, R78: log entry 9; the statement holds for every such value), every
other read byte is the byte in memory. And when a held-back write takes effect, its byte is stored. The list of
writes held back, the event on which one takes effect, the event taken when none is placed (log entry 6) and the
mark of the layer are the model's own (log entry 8). -/
def Obligations.RacingHostAccess : Prop :=
  (∀ (s : State) (a : Word) (rest : List Event), s.fsm = .nttBusy →
    (∀ data : List Byte, data.length ≤ 2 ^ 64 → s.mem.wf = true → s.inputs = .hostWrite a data :: rest →
      let held := (addressed a data).filter fun c => inFootprint s.lat s.n c.1
      ∃ m, step s = .next { s with
          inputs := rest, reply := .memWritten, mem := m, pending := s.pending ++ held
          raced := s.raced || !held.isEmpty } ∧
        (∀ c ∈ addressed a data, inFootprint s.lat s.n c.1 = false → m.read c.1.toNat = c.2) ∧
        ∀ b : Word, (∀ c ∈ addressed a data, c.1 = b → inFootprint s.lat s.n b = true) →
          m.read b.toNat = s.mem.read b.toNat) ∧
    (∀ k : Nat, s.inputs = .hostRead a k :: rest →
      let races := fun i : Nat => inWriteFootprint s.lat s.n (a + BitVec.ofNat 64 i)
      let free := fun i : Nat => races i || notMemoryAt s.platform (a + BitVec.ofNat 64 i)
      step s = .next { s with
        inputs := rest
        reply := .memData ((List.range k).map fun i =>
          if free i then (any256 (s.draws + (List.range i).countP free)).setWidth 8
          else s.mem.read (a + BitVec.ofNat 64 i).toNat)
        draws := s.draws + (List.range k).countP free
        raced := s.raced || (List.range k).any races })) ∧
  ∀ (s : State) (i : Nat) (c : Word × Byte) (rest : List Event), s.mem.wf = true → s.pending[i]? = some c →
    s.inputs = .land i :: rest ∨ (s.inputs = [] ∧ rest = [] ∧ i = 0 ∧ s.fsm = .idle) →
    ∃ m, step s = .next { s with
        inputs := rest, mem := m, pending := s.pending.eraseIdx i
        raced := s.raced || (s.fsm == .nttBusy && inFootprint s.lat s.n c.1) } ∧
      m.read c.1.toNat = c.2 ∧ ∀ b : Word, b ≠ c.1 → m.read b.toNat = s.mem.read b.toNat

/-- R85: a raced layer ends like the same layer not raced but for bytes of its write footprint (and the model's
own count and mark, log entry 8): STATUS, BFLY_COUNT and FAULT_ADDR are unaffected, and no other byte is. When the
command ends, by completion or by abort, every byte of its write footprint holds a free value, and the statement
holds for every such value. -/
def Obligations.RacedLayerEnd : Prop :=
  ∀ s t : State, s.fsm = .nttBusy → s.raced = false → exec .nttLayer s = .next t →
    ∃ m d ra, exec .nttLayer { s with raced := true } = .next { t with mem := m, draws := d, raced := ra } ∧
      (∀ b : Word, inWriteFootprint s.lat s.n b = false → m.read b.toNat = t.mem.read b.toNat) ∧
      (t.fsm = .nttBusy → m = t.mem ∧ ra = true) ∧
      (t.fsm = .idle → ra = false ∧
        (s.mem.wf = true → ∀ b : Word, inWriteFootprint s.lat s.n b = true → freeByte m s.draws d b))

/-- R193: with every access answered and no host event in the way, a running layer ends after at most
⌈n/32⌉ butterflies plus one more engine step, with DONE = 1, and ERR = 0 or 2. (The rule's 'fewer than 2^59' is
one too few at n = 2^64 - 1, log entry 12: the statement says ⌈n/32⌉.) That a step with no event placed is the
engine's is the model's convention (log entry 6). -/
def Obligations.LayerTerminates : Prop :=
  ∀ s : State, Inv s → s.fsm = .nttBusy → s.hung = false → s.inputs = [] → s.platform.silent = [] →
    ∃ k ≤ (s.n.toNat + 31) / 32 + 1, ∃ t, Host.Core.run core k s = .next t ∧ t.fsm = .idle ∧ t.done = true ∧
      (t.err = 0 ∨ t.err = 2) ∧ t.bflyCount.toNat ≤ (s.n.toNat + 31) / 32

/-- R170: the whole command is equivalent to the rule's loop. Accepted, it makes one engine step for each offset
of the walk, whose butterflies are applied to memory one after another, and then the completion step. That a step
with no event placed is the engine's is the model's convention (log entry 6), and that `st.n` keeps its value
after the end is its choice (log entry 16). -/
def Obligations.LayerEqualsLoop : Prop :=
  ∀ s : State, s.fsm = .idle → s.inputs = [] → openPlatform s.platform →
    let l := s.ntt
    let os := offsets l (loopLength l)
    let x := os.foldl (bflyMem l) (s.mem, s.draws)
    ∃ t u, exec .nttLayer s = .next t ∧ Host.Core.run core (os.length + 1) t = .next u ∧
      ∃ o, (loopLength l).toNat ≤ o ∧
        u = { t with
          mem := x.1, draws := x.2, o := o, bflyCount := BitVec.ofNat 64 os.length
          err := 0, done := true, fsm := .idle }

/-! ### Rules of the whole machine -/

/-- R260, R263, R271: no event stops the machine; every step, from every state, goes on to a next state. -/
def Obligations.EveryStepGoesOn : Prop := ∀ s : State, ∃ t, step s = .next t

/-- No step changes the platform's parameters, the OPEN parameters of R7 among them: that they are fixed over time
is the model's choice (log entry 4). Each step takes the first event of the list, where one is placed: the list is
the model's own (log entry 6). -/
def Obligations.PlatformIsFixed : Prop :=
  ∀ s t : State, step s = .next t → t.platform = s.platform ∧ t.inputs = s.inputs.tail

/-- R26: when OVR is set and cleared. -/
def Obligations.OvrIsSticky : Prop :=
  State.reset.ovr = false ∧
  ∀ s t : State, step s = .next t →
    (∀ w rest, s.inputs = cmdEvent w :: rest → s.fsm ≠ .idle → t.ovr = true) ∧
    (s.ovr = true → t.ovr = false →
      s.inputs.head? = some .reset ∨ ∃ v : Word, v.getLsbD 2 = true ∧ s.inputs.head? = some (writeEvent 0x08 v)) ∧
    (∀ v rest, s.inputs = writeEvent 0x08 v :: rest → v.getLsbD 2 = true → t.ovr = false) ∧
    (s.ovr = false → t.ovr = true → s.fsm ≠ .idle ∧ ∃ w, s.inputs.head? = some (cmdEvent w))

/-- R20, R29, R32 to R40: CTRL and the operand registers change only by a host write to them, or by reset. -/
def Obligations.OperandRegistersAreTheHosts : Prop :=
  ∀ s t : State, step s = .next t → (t.ntt, t.x, t.y, t.irqEn) ≠ (s.ntt, s.x, s.y, s.irqEn) →
    s.inputs.head? = some .reset ∨
      ∃ off v, off ∈ (0x10 :: operandOffsets) ∧ s.inputs.head? = some (writeEvent off v)

/-- R43 and R243: the engine leaves IDLE only when a command is accepted, and while it runs a command only its
own step or reset ends it; at a completion or abort DONE = 1 and ERR is 0 or 2. -/
def Obligations.FsmTransitions : Prop :=
  ∀ s t : State, step s = .next t →
    (s.fsm = .idle → t.fsm ≠ .idle → ∃ w i, s.inputs.head? = some (cmdEvent w) ∧ decode w = .ok i ∧ t.fsm = runs i) ∧
    (s.fsm ≠ .idle → t.fsm ≠ s.fsm →
      t.fsm = .idle ∧
        (s.inputs.head? = some .reset ∨
          ((s.inputs = [] ∨ s.inputs.head? = some .engine) ∧ t.done = true ∧ (t.err = 0 ∨ t.err = 2))))

/-- R30: what changes BFLY_COUNT: an accepted NTT_LAYER and reset set it to 0, a completed butterfly adds 1. -/
def Obligations.BflyCountCounts : Prop :=
  ∀ s t : State, step s = .next t → t.bflyCount ≠ s.bflyCount →
    (t.bflyCount = 0 ∧ (s.inputs.head? = some .reset ∨ s.fsm = .idle ∧ s.inputs.head? = some (cmdEvent 2))) ∨
      (t.bflyCount = s.bflyCount + 1 ∧ s.fsm = .nttBusy ∧ t.fsm = .nttBusy ∧ t.o = advance s.o s.lat.dist.toNat)

/-- R31: what changes FAULT_ADDR: an acceptance and reset clear it, a bus-error abort sets it to the address of
an element access of the failing butterfly. -/
def Obligations.FaultAddrRecords : Prop :=
  ∀ s t : State, step s = .next t → t.faultAddr ≠ s.faultAddr →
    (t.faultAddr = 0 ∧
      (s.inputs.head? = some .reset ∨
        s.fsm = .idle ∧ (s.inputs.head? = some (cmdEvent 1) ∨ s.inputs.head? = some (cmdEvent 2)))) ∨
      (s.fsm = .nttBusy ∧ t.fsm = .idle ∧ t.err = 2 ∧ ∃ x ∈ accesses s, t.faultAddr = x.2)

/-- Memory changes only by a butterfly, at the end of a raced layer, by reset while a layer runs, and by the
host's own writes (R20, R144, R186, R292; log entry 8). -/
def Obligations.WhoChangesMemory : Prop :=
  ∀ s t : State, step s = .next t → t.mem ≠ s.mem →
    (s.fsm = .nttBusy ∧ (s.inputs = [] ∨ s.inputs.head? = some .engine ∨ s.inputs.head? = some .reset)) ∨
      (∃ a data, s.inputs.head? = some (.hostWrite a data)) ∨
      (s.pending ≠ [] ∧ (s.inputs = [] ∨ ∃ i, s.inputs.head? = some (.land i)))

/-- The invariant holds right after reset (R48). -/
def Obligations.ResetMeetsInvariant : Prop := Inv State.reset

/-- Every step keeps the invariant, from every state that meets it: canonical memory, ERR 0 to 2 (R27), the
running command's record (R234, R237), nothing raced or hung unless a layer runs, and a running layer's length,
offset below 2^66 (R46) and on the walk (R176), and bound on BFLY_COUNT (R193). -/
def Obligations.StepKeepsInvariant : Prop :=
  ∀ s t : State, Inv s → step s = .next t → Inv t
end

