-- ==== Sys2Proof/Laws/Memory.lean ====
section
/-! SUPPORT. The laws of data memory: every operation keeps the canonical form; a read after a write to the
same place gives what was written; a write leaves every other place alone. -/

namespace Sys2Proof.Machine

open Sys2Proof.Config (blankByte)

/-! ### One byte -/

theorem Memory.wfFrom_mono {lo lo' : Nat} {m : Memory} (h : lo' ≤ lo) (hm : m.wfFrom lo = true) :
    m.wfFrom lo' = true := by
  cases m with
  | nil => rfl
  | cons c m =>
    simp only [Memory.wfFrom, Bool.and_eq_true, decide_eq_true_eq] at hm ⊢
    exact ⟨⟨⟨by omega, hm.1.1.2⟩, hm.1.2⟩, hm.2⟩

/-- Below the least listed address every byte is blank. -/
theorem Memory.read_below {lo a : Nat} {m : Memory} (hm : m.wfFrom lo = true) (h : a < lo) :
    m.read a = blankByte := by
  induction m generalizing lo with
  | nil => rfl
  | cons c m ih =>
    simp only [Memory.wfFrom, Bool.and_eq_true, decide_eq_true_eq] at hm
    rw [Memory.read, if_neg (by omega)]
    exact ih hm.2 (by omega)

theorem Memory.wfFrom_write {lo a : Nat} {b : Byte} {m : Memory} (hm : m.wfFrom lo = true) (hlo : lo ≤ a)
    (ha : a < 2 ^ 64) : (m.write a b).wfFrom lo = true := by
  induction m generalizing lo with
  | nil =>
    by_cases hb : b = blankByte <;> simp [Memory.write, Memory.wfFrom, hb]
    omega
  | cons c m ih =>
    simp only [Memory.wfFrom, Bool.and_eq_true, decide_eq_true_eq, bne_iff_ne, ne_eq] at hm
    obtain ⟨⟨⟨h1, h2⟩, h3⟩, h4⟩ := hm
    unfold Memory.write
    split
    · simp only [Memory.wfFrom, Bool.and_eq_true, decide_eq_true_eq, bne_iff_ne, ne_eq]
      exact ⟨⟨⟨h1, h2⟩, h3⟩, ih h4 (by omega)⟩
    · split
      · split
        · exact Memory.wfFrom_mono (by omega) h4
        · rename_i hc hb
          rw [hc] at h4
          simp only [Memory.wfFrom, Bool.and_eq_true, decide_eq_true_eq, bne_iff_ne, ne_eq]
          exact ⟨⟨⟨hlo, ha⟩, hb⟩, h4⟩
      · split
        · simp only [Memory.wfFrom, Bool.and_eq_true, decide_eq_true_eq, bne_iff_ne, ne_eq]
          exact ⟨⟨⟨h1, h2⟩, h3⟩, h4⟩
        · rename_i hb
          simp only [Memory.wfFrom, Bool.and_eq_true, decide_eq_true_eq, bne_iff_ne, ne_eq]
          exact ⟨⟨⟨hlo, ha⟩, hb⟩, ⟨⟨by omega, h2⟩, h3⟩, h4⟩

/-- A write keeps the canonical form. -/
theorem Memory.wf_write {a : Nat} {b : Byte} {m : Memory} (hm : m.wf = true) (ha : a < 2 ^ 64) :
    (m.write a b).wf = true :=
  Memory.wfFrom_write hm (Nat.zero_le a) ha

/-- A write leaves every other byte alone. -/
theorem Memory.read_write_other {a a' : Nat} (b : Byte) (m : Memory) (h : a' ≠ a) :
    (m.write a b).read a' = m.read a' := by
  induction m with
  | nil =>
    unfold Memory.write
    split <;> simp [Memory.read, Ne.symm h]
  | cons c m ih =>
    unfold Memory.write
    split
    · simp only [Memory.read, ih]
    · split
      · rename_i hc
        split <;> simp [Memory.read, hc, Ne.symm h]
      · split <;> simp [Memory.read, Ne.symm h]

theorem Memory.read_write_from {lo a : Nat} {b : Byte} {m : Memory} (hm : m.wfFrom lo = true) :
    (m.write a b).read a = b := by
  induction m generalizing lo with
  | nil =>
    unfold Memory.write
    split <;> simp_all [Memory.read]
  | cons c m ih =>
    simp only [Memory.wfFrom, Bool.and_eq_true, decide_eq_true_eq] at hm
    unfold Memory.write
    split
    · rw [Memory.read, if_neg (by omega)]
      exact ih hm.2
    · split
      · split
        · rename_i hc hb
          rw [Memory.read_below hm.2 (by omega), hb]
        · simp [Memory.read]
      · split
        · rename_i hb
          rw [Memory.read, if_neg (by omega), Memory.read_below hm.2 (by omega), hb]
        · simp [Memory.read]

/-- A read after a write to the same address gives the byte written. -/
theorem Memory.read_write_same {a : Nat} {b : Byte} {m : Memory} (hm : m.wf = true) :
    (m.write a b).read a = b :=
  Memory.read_write_from hm

/-! ### Bytes in a row -/

/-- The byte address i + 1 after a is i after a + 1. -/
theorem addr_succ (a : Word) (i : Nat) : a + 1 + BitVec.ofNat 64 i = a + BitVec.ofNat 64 (i + 1) := by
  rw [Nat.add_comm i 1, BitVec.ofNat_add, ← BitVec.add_assoc]
  rfl

/-- Storing bytes in a row keeps the canonical form. -/
theorem Memory.wf_writeBytes (sel : Word → Bool) (k : Nat) {m : Memory} (a : Word) (v : Nat)
    (hm : m.wf = true) : (m.writeBytes sel a v k).wf = true := by
  induction k generalizing m a v with
  | zero => exact hm
  | succ k ih =>
    unfold Memory.writeBytes
    apply ih
    split
    · exact Memory.wf_write hm a.isLt
    · exact hm

/-- Storing bytes in a row leaves every byte outside the row alone. -/
theorem Memory.read_writeBytes_outside (sel : Word → Bool) (k : Nat) (m : Memory) (a : Word) (v : Nat)
    (b : Word) (h : ∀ i < k, b ≠ a + BitVec.ofNat 64 i) :
    (m.writeBytes sel a v k).read b.toNat = m.read b.toNat := by
  induction k generalizing m a v with
  | zero => rfl
  | succ k ih =>
    unfold Memory.writeBytes
    rw [ih]
    · split
      · apply Memory.read_write_other
        intro hb
        exact h 0 (by omega) (by rw [BitVec.toNat_inj.mp hb]; simp)
      · rfl
    · intro i hi hb
      exact h (i + 1) (by omega) (by rw [hb, addr_succ])

/-- Storing bytes in a row leaves every byte the selection does not admit alone. -/
theorem Memory.read_writeBytes_unselected (sel : Word → Bool) (k : Nat) (m : Memory) (a : Word) (v : Nat)
    (b : Word) (h : sel b = false) : (m.writeBytes sel a v k).read b.toNat = m.read b.toNat := by
  induction k generalizing m a v with
  | zero => rfl
  | succ k ih =>
    unfold Memory.writeBytes
    rw [ih]
    split
    · apply Memory.read_write_other
      intro hb
      rw [BitVec.toNat_inj.mp hb] at h
      simp_all
    · rfl

/-- Byte i of the row holds byte i of the number stored, little-endian (R73), where the selection admits it. -/
theorem Memory.read_writeBytes_inside (sel : Word → Bool) (k : Nat) {m : Memory} (a : Word) (v i : Nat)
    (hm : m.wf = true) (hi : i < k) (hk : k ≤ 2 ^ 64) (hsel : sel (a + BitVec.ofNat 64 i) = true) :
    (m.writeBytes sel a v k).read (a + BitVec.ofNat 64 i).toNat = BitVec.ofNat 8 (v / 256 ^ i) := by
  induction k generalizing m a v i with
  | zero => omega
  | succ k ih =>
    unfold Memory.writeBytes
    cases i with
    | zero =>
      simp only [BitVec.ofNat_eq_ofNat, BitVec.add_zero, Nat.pow_zero, Nat.div_one] at hsel ⊢
      rw [if_pos hsel, Memory.read_writeBytes_outside, Memory.read_write_same hm]
      intro j hj hb
      have h1 := congrArg BitVec.toNat hb
      simp only [BitVec.toNat_add, BitVec.toNat_ofNat] at h1
      have := a.isLt
      omega
    | succ i =>
      rw [← addr_succ] at hsel ⊢
      rw [ih (a + 1) (v / 256) i _ (by omega) (by omega) hsel, Nat.div_div_eq_div_mul, Nat.pow_succ, Nat.mul_comm]
      split
      · exact Memory.wf_write hm a.isLt
      · exact hm

/-- A number read from a row depends on the bytes of the row alone. -/
theorem Memory.readBytes_congr {m m' : Memory} (a : Word) (k : Nat)
    (h : ∀ i < k, m.read (a + BitVec.ofNat 64 i).toNat = m'.read (a + BitVec.ofNat 64 i).toNat) :
    m.readBytes a k = m'.readBytes a k := by
  induction k generalizing a with
  | zero => rfl
  | succ k ih =>
    unfold Memory.readBytes
    have h0 := h 0 (by omega)
    simp only [BitVec.add_zero] at h0
    rw [h0, ih]
    intro i hi
    rw [addr_succ]
    exact h (i + 1) (by omega)

theorem Memory.readBytes_lt (m : Memory) (a : Word) (k : Nat) : m.readBytes a k < 256 ^ k := by
  induction k generalizing a with
  | zero => simp [Memory.readBytes]
  | succ k ih =>
    unfold Memory.readBytes
    have := (m.read a.toNat).isLt
    have := ih (a + 1)
    rw [Nat.pow_succ]
    omega

theorem Memory.readBytes_of_bytes {m : Memory} (a : Word) (v k : Nat)
    (h : ∀ i < k, m.read (a + BitVec.ofNat 64 i).toNat = BitVec.ofNat 8 (v / 256 ^ i)) :
    m.readBytes a k = v % 256 ^ k := by
  induction k generalizing a v with
  | zero => simp [Memory.readBytes, Nat.mod_one]
  | succ k ih =>
    unfold Memory.readBytes
    have h0 := h 0 (by omega)
    simp only [BitVec.add_zero, Nat.pow_zero, Nat.div_one] at h0
    have ht : ∀ i < k, m.read (a + 1 + BitVec.ofNat 64 i).toNat = BitVec.ofNat 8 (v / 256 / 256 ^ i) := by
      intro i hi
      rw [addr_succ, h (i + 1) (by omega), Nat.pow_succ', ← Nat.div_div_eq_div_mul]
    rw [h0, ih (a + 1) (v / 256) ht, BitVec.toNat_ofNat, Nat.pow_succ' (n := k), Nat.mod_mul (x := v)]

/-! ### Elements -/

/-- The bytes of the element at a are a, a + 1, …, a + 31 modulo 2^64 (R75). -/
theorem inElem_iff (a b : Word) : inElem a b = true ↔ ∃ i < 32, b = a + BitVec.ofNat 64 i := by
  simp only [inElem, decide_eq_true_eq]
  constructor
  · intro h
    refine ⟨(b - a).toNat, h, ?_⟩
    rw [BitVec.ofNat_toNat, BitVec.setWidth_eq, BitVec.add_comm, BitVec.sub_add_cancel]
  · rintro ⟨i, hi, rfl⟩
    rw [BitVec.add_comm, BitVec.add_sub_cancel, BitVec.toNat_ofNat]
    omega

/-- Storing an element keeps the canonical form. -/
theorem Memory.wf_setElem {m : Memory} (a : Word) (v : Elem) (hm : m.wf = true) : (m.setElem a v).wf = true :=
  Memory.wf_writeBytes _ _ _ _ hm

/-- Storing an element leaves every byte outside its 32 alone. -/
theorem Memory.read_setElem_outside (m : Memory) (a : Word) (v : Elem) (b : Word) (h : inElem a b = false) :
    (m.setElem a v).read b.toNat = m.read b.toNat := by
  apply Memory.read_writeBytes_outside
  intro i hi hb
  have := (inElem_iff a b).mpr ⟨i, hi, hb⟩
  simp_all

/-- Byte i of an element stored is its bits 8i+7 to 8i (R73). -/
theorem Memory.read_setElem_inside {m : Memory} (a : Word) (v : Elem) (i : Nat) (hm : m.wf = true) (hi : i < 32) :
    (m.setElem a v).read (a + BitVec.ofNat 64 i).toNat = BitVec.ofNat 8 (v.toNat / 256 ^ i) :=
  Memory.read_writeBytes_inside _ _ _ _ _ hm hi (by omega) rfl

/-- A byte inside an element just stored is a byte of the element. -/
theorem Memory.read_setElem_byte {m : Memory} (a : Word) (v : Elem) (b : Word) (hm : m.wf = true)
    (h : inElem a b = true) : ∃ i < 32, (m.setElem a v).read b.toNat = v.extractLsb' (8 * i) 8 := by
  obtain ⟨i, hi, rfl⟩ := (inElem_iff a b).mp h
  refine ⟨i, hi, ?_⟩
  rw [Memory.read_setElem_inside a v i hm hi]
  apply BitVec.eq_of_toNat_eq
  rw [BitVec.extractLsb'_toNat, BitVec.toNat_ofNat, Nat.shiftRight_eq_div_pow, Nat.pow_mul]

/-- An element read after it was stored is the element stored. -/
theorem Memory.elem_setElem_same {m : Memory} (a : Word) (v : Elem) (hm : m.wf = true) :
    (m.setElem a v).elem a = v := by
  unfold Memory.elem
  rw [Memory.readBytes_of_bytes a v.toNat 32 (fun i hi => Memory.read_setElem_inside a v i hm hi)]
  have : (256 : Nat) ^ 32 = 2 ^ 256 := by norm_num
  rw [this, Nat.mod_eq_of_lt v.isLt, BitVec.ofNat_toNat, BitVec.setWidth_eq]

/-- An element disjoint from the one stored reads as before. -/
theorem Memory.elem_setElem_other (m : Memory) (a a' : Word) (v : Elem)
    (h : ∀ i < 32, inElem a (a' + BitVec.ofNat 64 i) = false) : (m.setElem a v).elem a' = m.elem a' := by
  unfold Memory.elem
  rw [Memory.readBytes_congr a' 32 (fun i hi => Memory.read_setElem_outside m a v _ (h i hi))]

end Sys2Proof.Machine
end

