-- ==== Sys2Proof/Laws/State.lean ====
section
/-! SUPPORT. One lemma per field of State per named update, true by rfl, so that no later proof unfolds a
record update. -/

namespace Sys2Proof.Machine

variable (s : State)

@[simp] theorem flagsAccept_fsm : (flagsAccept s).fsm = s.fsm := rfl
@[simp] theorem flagsAccept_done : (flagsAccept s).done = false := rfl
@[simp] theorem flagsAccept_ovr : (flagsAccept s).ovr = s.ovr := rfl
@[simp] theorem flagsAccept_err : (flagsAccept s).err = 0 := rfl
@[simp] theorem flagsAccept_irqEn : (flagsAccept s).irqEn = s.irqEn := rfl
@[simp] theorem flagsAccept_bflyCount : (flagsAccept s).bflyCount = s.bflyCount := rfl
@[simp] theorem flagsAccept_faultAddr : (flagsAccept s).faultAddr = s.faultAddr := rfl
@[simp] theorem flagsAccept_ntt : (flagsAccept s).ntt = s.ntt := rfl
@[simp] theorem flagsAccept_x : (flagsAccept s).x = s.x := rfl
@[simp] theorem flagsAccept_y : (flagsAccept s).y = s.y := rfl
@[simp] theorem flagsAccept_res : (flagsAccept s).res = s.res := rfl
@[simp] theorem flagsAccept_lx : (flagsAccept s).lx = s.lx := rfl
@[simp] theorem flagsAccept_ly : (flagsAccept s).ly = s.ly := rfl
@[simp] theorem flagsAccept_lat : (flagsAccept s).lat = s.lat := rfl
@[simp] theorem flagsAccept_o : (flagsAccept s).o = s.o := rfl
@[simp] theorem flagsAccept_n : (flagsAccept s).n = s.n := rfl
@[simp] theorem flagsAccept_hung : (flagsAccept s).hung = s.hung := rfl
@[simp] theorem flagsAccept_raced : (flagsAccept s).raced = s.raced := rfl
@[simp] theorem flagsAccept_mem : (flagsAccept s).mem = s.mem := rfl
@[simp] theorem flagsAccept_pending : (flagsAccept s).pending = s.pending := rfl
@[simp] theorem flagsAccept_reply : (flagsAccept s).reply = s.reply := rfl
@[simp] theorem flagsAccept_draws : (flagsAccept s).draws = s.draws := rfl
@[simp] theorem flagsAccept_platform : (flagsAccept s).platform = s.platform := rfl
@[simp] theorem flagsAccept_inputs : (flagsAccept s).inputs = s.inputs := rfl

@[simp] theorem flagsFinish_fsm : (flagsFinish s).fsm = s.fsm := rfl
@[simp] theorem flagsFinish_done : (flagsFinish s).done = true := rfl
@[simp] theorem flagsFinish_ovr : (flagsFinish s).ovr = s.ovr := rfl
@[simp] theorem flagsFinish_err : (flagsFinish s).err = 0 := rfl
@[simp] theorem flagsFinish_irqEn : (flagsFinish s).irqEn = s.irqEn := rfl
@[simp] theorem flagsFinish_bflyCount : (flagsFinish s).bflyCount = s.bflyCount := rfl
@[simp] theorem flagsFinish_faultAddr : (flagsFinish s).faultAddr = s.faultAddr := rfl
@[simp] theorem flagsFinish_ntt : (flagsFinish s).ntt = s.ntt := rfl
@[simp] theorem flagsFinish_x : (flagsFinish s).x = s.x := rfl
@[simp] theorem flagsFinish_y : (flagsFinish s).y = s.y := rfl
@[simp] theorem flagsFinish_res : (flagsFinish s).res = s.res := rfl
@[simp] theorem flagsFinish_lx : (flagsFinish s).lx = s.lx := rfl
@[simp] theorem flagsFinish_ly : (flagsFinish s).ly = s.ly := rfl
@[simp] theorem flagsFinish_lat : (flagsFinish s).lat = s.lat := rfl
@[simp] theorem flagsFinish_o : (flagsFinish s).o = s.o := rfl
@[simp] theorem flagsFinish_n : (flagsFinish s).n = s.n := rfl
@[simp] theorem flagsFinish_hung : (flagsFinish s).hung = s.hung := rfl
@[simp] theorem flagsFinish_raced : (flagsFinish s).raced = s.raced := rfl
@[simp] theorem flagsFinish_mem : (flagsFinish s).mem = s.mem := rfl
@[simp] theorem flagsFinish_pending : (flagsFinish s).pending = s.pending := rfl
@[simp] theorem flagsFinish_reply : (flagsFinish s).reply = s.reply := rfl
@[simp] theorem flagsFinish_draws : (flagsFinish s).draws = s.draws := rfl
@[simp] theorem flagsFinish_platform : (flagsFinish s).platform = s.platform := rfl
@[simp] theorem flagsFinish_inputs : (flagsFinish s).inputs = s.inputs := rfl

@[simp] theorem flagsRefuse_fsm : (flagsRefuse s).fsm = s.fsm := rfl
@[simp] theorem flagsRefuse_done : (flagsRefuse s).done = true := rfl
@[simp] theorem flagsRefuse_ovr : (flagsRefuse s).ovr = s.ovr := rfl
@[simp] theorem flagsRefuse_err : (flagsRefuse s).err = 1 := rfl
@[simp] theorem flagsRefuse_irqEn : (flagsRefuse s).irqEn = s.irqEn := rfl
@[simp] theorem flagsRefuse_bflyCount : (flagsRefuse s).bflyCount = s.bflyCount := rfl
@[simp] theorem flagsRefuse_faultAddr : (flagsRefuse s).faultAddr = s.faultAddr := rfl
@[simp] theorem flagsRefuse_ntt : (flagsRefuse s).ntt = s.ntt := rfl
@[simp] theorem flagsRefuse_x : (flagsRefuse s).x = s.x := rfl
@[simp] theorem flagsRefuse_y : (flagsRefuse s).y = s.y := rfl
@[simp] theorem flagsRefuse_res : (flagsRefuse s).res = s.res := rfl
@[simp] theorem flagsRefuse_lx : (flagsRefuse s).lx = s.lx := rfl
@[simp] theorem flagsRefuse_ly : (flagsRefuse s).ly = s.ly := rfl
@[simp] theorem flagsRefuse_lat : (flagsRefuse s).lat = s.lat := rfl
@[simp] theorem flagsRefuse_o : (flagsRefuse s).o = s.o := rfl
@[simp] theorem flagsRefuse_n : (flagsRefuse s).n = s.n := rfl
@[simp] theorem flagsRefuse_hung : (flagsRefuse s).hung = s.hung := rfl
@[simp] theorem flagsRefuse_raced : (flagsRefuse s).raced = s.raced := rfl
@[simp] theorem flagsRefuse_mem : (flagsRefuse s).mem = s.mem := rfl
@[simp] theorem flagsRefuse_pending : (flagsRefuse s).pending = s.pending := rfl
@[simp] theorem flagsRefuse_reply : (flagsRefuse s).reply = s.reply := rfl
@[simp] theorem flagsRefuse_draws : (flagsRefuse s).draws = s.draws := rfl
@[simp] theorem flagsRefuse_platform : (flagsRefuse s).platform = s.platform := rfl
@[simp] theorem flagsRefuse_inputs : (flagsRefuse s).inputs = s.inputs := rfl

@[simp] theorem flagsAbort_fsm : (flagsAbort s).fsm = s.fsm := rfl
@[simp] theorem flagsAbort_done : (flagsAbort s).done = true := rfl
@[simp] theorem flagsAbort_ovr : (flagsAbort s).ovr = s.ovr := rfl
@[simp] theorem flagsAbort_err : (flagsAbort s).err = 2 := rfl
@[simp] theorem flagsAbort_irqEn : (flagsAbort s).irqEn = s.irqEn := rfl
@[simp] theorem flagsAbort_bflyCount : (flagsAbort s).bflyCount = s.bflyCount := rfl
@[simp] theorem flagsAbort_faultAddr : (flagsAbort s).faultAddr = s.faultAddr := rfl
@[simp] theorem flagsAbort_ntt : (flagsAbort s).ntt = s.ntt := rfl
@[simp] theorem flagsAbort_x : (flagsAbort s).x = s.x := rfl
@[simp] theorem flagsAbort_y : (flagsAbort s).y = s.y := rfl
@[simp] theorem flagsAbort_res : (flagsAbort s).res = s.res := rfl
@[simp] theorem flagsAbort_lx : (flagsAbort s).lx = s.lx := rfl
@[simp] theorem flagsAbort_ly : (flagsAbort s).ly = s.ly := rfl
@[simp] theorem flagsAbort_lat : (flagsAbort s).lat = s.lat := rfl
@[simp] theorem flagsAbort_o : (flagsAbort s).o = s.o := rfl
@[simp] theorem flagsAbort_n : (flagsAbort s).n = s.n := rfl
@[simp] theorem flagsAbort_hung : (flagsAbort s).hung = s.hung := rfl
@[simp] theorem flagsAbort_raced : (flagsAbort s).raced = s.raced := rfl
@[simp] theorem flagsAbort_mem : (flagsAbort s).mem = s.mem := rfl
@[simp] theorem flagsAbort_pending : (flagsAbort s).pending = s.pending := rfl
@[simp] theorem flagsAbort_reply : (flagsAbort s).reply = s.reply := rfl
@[simp] theorem flagsAbort_draws : (flagsAbort s).draws = s.draws := rfl
@[simp] theorem flagsAbort_platform : (flagsAbort s).platform = s.platform := rfl
@[simp] theorem flagsAbort_inputs : (flagsAbort s).inputs = s.inputs := rfl

@[simp] theorem flagsOverrun_fsm : (flagsOverrun s).fsm = s.fsm := rfl
@[simp] theorem flagsOverrun_done : (flagsOverrun s).done = s.done := rfl
@[simp] theorem flagsOverrun_ovr : (flagsOverrun s).ovr = true := rfl
@[simp] theorem flagsOverrun_err : (flagsOverrun s).err = s.err := rfl
@[simp] theorem flagsOverrun_irqEn : (flagsOverrun s).irqEn = s.irqEn := rfl
@[simp] theorem flagsOverrun_bflyCount : (flagsOverrun s).bflyCount = s.bflyCount := rfl
@[simp] theorem flagsOverrun_faultAddr : (flagsOverrun s).faultAddr = s.faultAddr := rfl
@[simp] theorem flagsOverrun_ntt : (flagsOverrun s).ntt = s.ntt := rfl
@[simp] theorem flagsOverrun_x : (flagsOverrun s).x = s.x := rfl
@[simp] theorem flagsOverrun_y : (flagsOverrun s).y = s.y := rfl
@[simp] theorem flagsOverrun_res : (flagsOverrun s).res = s.res := rfl
@[simp] theorem flagsOverrun_lx : (flagsOverrun s).lx = s.lx := rfl
@[simp] theorem flagsOverrun_ly : (flagsOverrun s).ly = s.ly := rfl
@[simp] theorem flagsOverrun_lat : (flagsOverrun s).lat = s.lat := rfl
@[simp] theorem flagsOverrun_o : (flagsOverrun s).o = s.o := rfl
@[simp] theorem flagsOverrun_n : (flagsOverrun s).n = s.n := rfl
@[simp] theorem flagsOverrun_hung : (flagsOverrun s).hung = s.hung := rfl
@[simp] theorem flagsOverrun_raced : (flagsOverrun s).raced = s.raced := rfl
@[simp] theorem flagsOverrun_mem : (flagsOverrun s).mem = s.mem := rfl
@[simp] theorem flagsOverrun_pending : (flagsOverrun s).pending = s.pending := rfl
@[simp] theorem flagsOverrun_reply : (flagsOverrun s).reply = s.reply := rfl
@[simp] theorem flagsOverrun_draws : (flagsOverrun s).draws = s.draws := rfl
@[simp] theorem flagsOverrun_platform : (flagsOverrun s).platform = s.platform := rfl
@[simp] theorem flagsOverrun_inputs : (flagsOverrun s).inputs = s.inputs := rfl

@[simp] theorem flagsStatusWrite_fsm (v : Word) : (flagsStatusWrite v s).fsm = s.fsm := rfl
@[simp] theorem flagsStatusWrite_done (v : Word) : (flagsStatusWrite v s).done = (s.done && !v.getLsbD 1) := rfl
@[simp] theorem flagsStatusWrite_ovr (v : Word) : (flagsStatusWrite v s).ovr = (s.ovr && !v.getLsbD 2) := rfl
@[simp] theorem flagsStatusWrite_err (v : Word) : (flagsStatusWrite v s).err = s.err := rfl
@[simp] theorem flagsStatusWrite_irqEn (v : Word) : (flagsStatusWrite v s).irqEn = s.irqEn := rfl
@[simp] theorem flagsStatusWrite_bflyCount (v : Word) : (flagsStatusWrite v s).bflyCount = s.bflyCount := rfl
@[simp] theorem flagsStatusWrite_faultAddr (v : Word) : (flagsStatusWrite v s).faultAddr = s.faultAddr := rfl
@[simp] theorem flagsStatusWrite_ntt (v : Word) : (flagsStatusWrite v s).ntt = s.ntt := rfl
@[simp] theorem flagsStatusWrite_x (v : Word) : (flagsStatusWrite v s).x = s.x := rfl
@[simp] theorem flagsStatusWrite_y (v : Word) : (flagsStatusWrite v s).y = s.y := rfl
@[simp] theorem flagsStatusWrite_res (v : Word) : (flagsStatusWrite v s).res = s.res := rfl
@[simp] theorem flagsStatusWrite_lx (v : Word) : (flagsStatusWrite v s).lx = s.lx := rfl
@[simp] theorem flagsStatusWrite_ly (v : Word) : (flagsStatusWrite v s).ly = s.ly := rfl
@[simp] theorem flagsStatusWrite_lat (v : Word) : (flagsStatusWrite v s).lat = s.lat := rfl
@[simp] theorem flagsStatusWrite_o (v : Word) : (flagsStatusWrite v s).o = s.o := rfl
@[simp] theorem flagsStatusWrite_n (v : Word) : (flagsStatusWrite v s).n = s.n := rfl
@[simp] theorem flagsStatusWrite_hung (v : Word) : (flagsStatusWrite v s).hung = s.hung := rfl
@[simp] theorem flagsStatusWrite_raced (v : Word) : (flagsStatusWrite v s).raced = s.raced := rfl
@[simp] theorem flagsStatusWrite_mem (v : Word) : (flagsStatusWrite v s).mem = s.mem := rfl
@[simp] theorem flagsStatusWrite_pending (v : Word) : (flagsStatusWrite v s).pending = s.pending := rfl
@[simp] theorem flagsStatusWrite_reply (v : Word) : (flagsStatusWrite v s).reply = s.reply := rfl
@[simp] theorem flagsStatusWrite_draws (v : Word) : (flagsStatusWrite v s).draws = s.draws := rfl
@[simp] theorem flagsStatusWrite_platform (v : Word) : (flagsStatusWrite v s).platform = s.platform := rfl
@[simp] theorem flagsStatusWrite_inputs (v : Word) : (flagsStatusWrite v s).inputs = s.inputs := rfl

@[simp] theorem flagsCtrlWrite_fsm (v : Word) : (flagsCtrlWrite v s).fsm = s.fsm := rfl
@[simp] theorem flagsCtrlWrite_done (v : Word) : (flagsCtrlWrite v s).done = s.done := rfl
@[simp] theorem flagsCtrlWrite_ovr (v : Word) : (flagsCtrlWrite v s).ovr = s.ovr := rfl
@[simp] theorem flagsCtrlWrite_err (v : Word) : (flagsCtrlWrite v s).err = s.err := rfl
@[simp] theorem flagsCtrlWrite_irqEn (v : Word) : (flagsCtrlWrite v s).irqEn = v.getLsbD 0 := rfl
@[simp] theorem flagsCtrlWrite_bflyCount (v : Word) : (flagsCtrlWrite v s).bflyCount = s.bflyCount := rfl
@[simp] theorem flagsCtrlWrite_faultAddr (v : Word) : (flagsCtrlWrite v s).faultAddr = s.faultAddr := rfl
@[simp] theorem flagsCtrlWrite_ntt (v : Word) : (flagsCtrlWrite v s).ntt = s.ntt := rfl
@[simp] theorem flagsCtrlWrite_x (v : Word) : (flagsCtrlWrite v s).x = s.x := rfl
@[simp] theorem flagsCtrlWrite_y (v : Word) : (flagsCtrlWrite v s).y = s.y := rfl
@[simp] theorem flagsCtrlWrite_res (v : Word) : (flagsCtrlWrite v s).res = s.res := rfl
@[simp] theorem flagsCtrlWrite_lx (v : Word) : (flagsCtrlWrite v s).lx = s.lx := rfl
@[simp] theorem flagsCtrlWrite_ly (v : Word) : (flagsCtrlWrite v s).ly = s.ly := rfl
@[simp] theorem flagsCtrlWrite_lat (v : Word) : (flagsCtrlWrite v s).lat = s.lat := rfl
@[simp] theorem flagsCtrlWrite_o (v : Word) : (flagsCtrlWrite v s).o = s.o := rfl
@[simp] theorem flagsCtrlWrite_n (v : Word) : (flagsCtrlWrite v s).n = s.n := rfl
@[simp] theorem flagsCtrlWrite_hung (v : Word) : (flagsCtrlWrite v s).hung = s.hung := rfl
@[simp] theorem flagsCtrlWrite_raced (v : Word) : (flagsCtrlWrite v s).raced = s.raced := rfl
@[simp] theorem flagsCtrlWrite_mem (v : Word) : (flagsCtrlWrite v s).mem = s.mem := rfl
@[simp] theorem flagsCtrlWrite_pending (v : Word) : (flagsCtrlWrite v s).pending = s.pending := rfl
@[simp] theorem flagsCtrlWrite_reply (v : Word) : (flagsCtrlWrite v s).reply = s.reply := rfl
@[simp] theorem flagsCtrlWrite_draws (v : Word) : (flagsCtrlWrite v s).draws = s.draws := rfl
@[simp] theorem flagsCtrlWrite_platform (v : Word) : (flagsCtrlWrite v s).platform = s.platform := rfl
@[simp] theorem flagsCtrlWrite_inputs (v : Word) : (flagsCtrlWrite v s).inputs = s.inputs := rfl

@[simp] theorem finishCommand_fsm : (finishCommand s).fsm = .idle := rfl
@[simp] theorem finishCommand_done : (finishCommand s).done = true := rfl
@[simp] theorem finishCommand_ovr : (finishCommand s).ovr = s.ovr := rfl
@[simp] theorem finishCommand_err : (finishCommand s).err = 0 := rfl
@[simp] theorem finishCommand_irqEn : (finishCommand s).irqEn = s.irqEn := rfl
@[simp] theorem finishCommand_bflyCount : (finishCommand s).bflyCount = s.bflyCount := rfl
@[simp] theorem finishCommand_faultAddr : (finishCommand s).faultAddr = s.faultAddr := rfl
@[simp] theorem finishCommand_ntt : (finishCommand s).ntt = s.ntt := rfl
@[simp] theorem finishCommand_x : (finishCommand s).x = s.x := rfl
@[simp] theorem finishCommand_y : (finishCommand s).y = s.y := rfl
@[simp] theorem finishCommand_res : (finishCommand s).res = s.res := rfl
@[simp] theorem finishCommand_lx : (finishCommand s).lx = s.lx := rfl
@[simp] theorem finishCommand_ly : (finishCommand s).ly = s.ly := rfl
@[simp] theorem finishCommand_lat : (finishCommand s).lat = s.lat := rfl
@[simp] theorem finishCommand_o : (finishCommand s).o = s.o := rfl
@[simp] theorem finishCommand_n : (finishCommand s).n = s.n := rfl
@[simp] theorem finishCommand_hung : (finishCommand s).hung = s.hung := rfl
@[simp] theorem finishCommand_raced : (finishCommand s).raced = s.raced := rfl
@[simp] theorem finishCommand_mem : (finishCommand s).mem = s.mem := rfl
@[simp] theorem finishCommand_pending : (finishCommand s).pending = s.pending := rfl
@[simp] theorem finishCommand_reply : (finishCommand s).reply = s.reply := rfl
@[simp] theorem finishCommand_draws : (finishCommand s).draws = s.draws := rfl
@[simp] theorem finishCommand_platform : (finishCommand s).platform = s.platform := rfl
@[simp] theorem finishCommand_inputs : (finishCommand s).inputs = s.inputs := rfl

@[simp] theorem refuseCommand_fsm : (refuseCommand s).fsm = s.fsm := rfl
@[simp] theorem refuseCommand_done : (refuseCommand s).done = true := rfl
@[simp] theorem refuseCommand_ovr : (refuseCommand s).ovr = s.ovr := rfl
@[simp] theorem refuseCommand_err : (refuseCommand s).err = 1 := rfl
@[simp] theorem refuseCommand_irqEn : (refuseCommand s).irqEn = s.irqEn := rfl
@[simp] theorem refuseCommand_bflyCount : (refuseCommand s).bflyCount = s.bflyCount := rfl
@[simp] theorem refuseCommand_faultAddr : (refuseCommand s).faultAddr = s.faultAddr := rfl
@[simp] theorem refuseCommand_ntt : (refuseCommand s).ntt = s.ntt := rfl
@[simp] theorem refuseCommand_x : (refuseCommand s).x = s.x := rfl
@[simp] theorem refuseCommand_y : (refuseCommand s).y = s.y := rfl
@[simp] theorem refuseCommand_res : (refuseCommand s).res = s.res := rfl
@[simp] theorem refuseCommand_lx : (refuseCommand s).lx = s.lx := rfl
@[simp] theorem refuseCommand_ly : (refuseCommand s).ly = s.ly := rfl
@[simp] theorem refuseCommand_lat : (refuseCommand s).lat = s.lat := rfl
@[simp] theorem refuseCommand_o : (refuseCommand s).o = s.o := rfl
@[simp] theorem refuseCommand_n : (refuseCommand s).n = s.n := rfl
@[simp] theorem refuseCommand_hung : (refuseCommand s).hung = s.hung := rfl
@[simp] theorem refuseCommand_raced : (refuseCommand s).raced = s.raced := rfl
@[simp] theorem refuseCommand_mem : (refuseCommand s).mem = s.mem := rfl
@[simp] theorem refuseCommand_pending : (refuseCommand s).pending = s.pending := rfl
@[simp] theorem refuseCommand_reply : (refuseCommand s).reply = s.reply := rfl
@[simp] theorem refuseCommand_draws : (refuseCommand s).draws = s.draws := rfl
@[simp] theorem refuseCommand_platform : (refuseCommand s).platform = s.platform := rfl
@[simp] theorem refuseCommand_inputs : (refuseCommand s).inputs = s.inputs := rfl

@[simp] theorem acceptCommand_fsm : (acceptCommand s).fsm = s.fsm := rfl
@[simp] theorem acceptCommand_done : (acceptCommand s).done = false := rfl
@[simp] theorem acceptCommand_ovr : (acceptCommand s).ovr = s.ovr := rfl
@[simp] theorem acceptCommand_err : (acceptCommand s).err = 0 := rfl
@[simp] theorem acceptCommand_irqEn : (acceptCommand s).irqEn = s.irqEn := rfl
@[simp] theorem acceptCommand_bflyCount : (acceptCommand s).bflyCount = s.bflyCount := rfl
@[simp] theorem acceptCommand_faultAddr : (acceptCommand s).faultAddr = 0 := rfl
@[simp] theorem acceptCommand_ntt : (acceptCommand s).ntt = s.ntt := rfl
@[simp] theorem acceptCommand_x : (acceptCommand s).x = s.x := rfl
@[simp] theorem acceptCommand_y : (acceptCommand s).y = s.y := rfl
@[simp] theorem acceptCommand_res : (acceptCommand s).res = s.res := rfl
@[simp] theorem acceptCommand_lx : (acceptCommand s).lx = s.lx := rfl
@[simp] theorem acceptCommand_ly : (acceptCommand s).ly = s.ly := rfl
@[simp] theorem acceptCommand_lat : (acceptCommand s).lat = s.lat := rfl
@[simp] theorem acceptCommand_o : (acceptCommand s).o = s.o := rfl
@[simp] theorem acceptCommand_n : (acceptCommand s).n = s.n := rfl
@[simp] theorem acceptCommand_hung : (acceptCommand s).hung = s.hung := rfl
@[simp] theorem acceptCommand_raced : (acceptCommand s).raced = s.raced := rfl
@[simp] theorem acceptCommand_mem : (acceptCommand s).mem = s.mem := rfl
@[simp] theorem acceptCommand_pending : (acceptCommand s).pending = s.pending := rfl
@[simp] theorem acceptCommand_reply : (acceptCommand s).reply = s.reply := rfl
@[simp] theorem acceptCommand_draws : (acceptCommand s).draws = s.draws := rfl
@[simp] theorem acceptCommand_platform : (acceptCommand s).platform = s.platform := rfl
@[simp] theorem acceptCommand_inputs : (acceptCommand s).inputs = s.inputs := rfl

@[simp] theorem hang_fsm : (hang s).fsm = s.fsm := rfl
@[simp] theorem hang_done : (hang s).done = s.done := rfl
@[simp] theorem hang_ovr : (hang s).ovr = s.ovr := rfl
@[simp] theorem hang_err : (hang s).err = s.err := rfl
@[simp] theorem hang_irqEn : (hang s).irqEn = s.irqEn := rfl
@[simp] theorem hang_bflyCount : (hang s).bflyCount = s.bflyCount := rfl
@[simp] theorem hang_faultAddr : (hang s).faultAddr = s.faultAddr := rfl
@[simp] theorem hang_ntt : (hang s).ntt = s.ntt := rfl
@[simp] theorem hang_x : (hang s).x = s.x := rfl
@[simp] theorem hang_y : (hang s).y = s.y := rfl
@[simp] theorem hang_res : (hang s).res = s.res := rfl
@[simp] theorem hang_lx : (hang s).lx = s.lx := rfl
@[simp] theorem hang_ly : (hang s).ly = s.ly := rfl
@[simp] theorem hang_lat : (hang s).lat = s.lat := rfl
@[simp] theorem hang_o : (hang s).o = s.o := rfl
@[simp] theorem hang_n : (hang s).n = s.n := rfl
@[simp] theorem hang_hung : (hang s).hung = true := rfl
@[simp] theorem hang_raced : (hang s).raced = s.raced := rfl
@[simp] theorem hang_mem : (hang s).mem = s.mem := rfl
@[simp] theorem hang_pending : (hang s).pending = s.pending := rfl
@[simp] theorem hang_reply : (hang s).reply = s.reply := rfl
@[simp] theorem hang_draws : (hang s).draws = s.draws := rfl
@[simp] theorem hang_platform : (hang s).platform = s.platform := rfl
@[simp] theorem hang_inputs : (hang s).inputs = s.inputs := rfl

@[simp] theorem storeElem_fsm (a : Word) (v : Elem) : (storeElem a v s).fsm = s.fsm := by simp only [storeElem]
@[simp] theorem storeElem_done (a : Word) (v : Elem) : (storeElem a v s).done = s.done := by simp only [storeElem]
@[simp] theorem storeElem_ovr (a : Word) (v : Elem) : (storeElem a v s).ovr = s.ovr := by simp only [storeElem]
@[simp] theorem storeElem_err (a : Word) (v : Elem) : (storeElem a v s).err = s.err := by simp only [storeElem]
@[simp] theorem storeElem_irqEn (a : Word) (v : Elem) : (storeElem a v s).irqEn = s.irqEn := by simp only [storeElem]
@[simp] theorem storeElem_bflyCount (a : Word) (v : Elem) : (storeElem a v s).bflyCount = s.bflyCount := by simp only [storeElem]
@[simp] theorem storeElem_faultAddr (a : Word) (v : Elem) : (storeElem a v s).faultAddr = s.faultAddr := by simp only [storeElem]
@[simp] theorem storeElem_ntt (a : Word) (v : Elem) : (storeElem a v s).ntt = s.ntt := by simp only [storeElem]
@[simp] theorem storeElem_x (a : Word) (v : Elem) : (storeElem a v s).x = s.x := by simp only [storeElem]
@[simp] theorem storeElem_y (a : Word) (v : Elem) : (storeElem a v s).y = s.y := by simp only [storeElem]
@[simp] theorem storeElem_res (a : Word) (v : Elem) : (storeElem a v s).res = s.res := by simp only [storeElem]
@[simp] theorem storeElem_lx (a : Word) (v : Elem) : (storeElem a v s).lx = s.lx := by simp only [storeElem]
@[simp] theorem storeElem_ly (a : Word) (v : Elem) : (storeElem a v s).ly = s.ly := by simp only [storeElem]
@[simp] theorem storeElem_lat (a : Word) (v : Elem) : (storeElem a v s).lat = s.lat := by simp only [storeElem]
@[simp] theorem storeElem_o (a : Word) (v : Elem) : (storeElem a v s).o = s.o := by simp only [storeElem]
@[simp] theorem storeElem_n (a : Word) (v : Elem) : (storeElem a v s).n = s.n := by simp only [storeElem]
@[simp] theorem storeElem_hung (a : Word) (v : Elem) : (storeElem a v s).hung = s.hung := by simp only [storeElem]
@[simp] theorem storeElem_raced (a : Word) (v : Elem) : (storeElem a v s).raced = s.raced := by simp only [storeElem]
@[simp] theorem storeElem_mem (a : Word) (v : Elem) : (storeElem a v s).mem = s.mem.setElem a v := by simp only [storeElem]
@[simp] theorem storeElem_pending (a : Word) (v : Elem) : (storeElem a v s).pending = s.pending := by simp only [storeElem]
@[simp] theorem storeElem_reply (a : Word) (v : Elem) : (storeElem a v s).reply = s.reply := by simp only [storeElem]
@[simp] theorem storeElem_draws (a : Word) (v : Elem) : (storeElem a v s).draws = s.draws := by simp only [storeElem]
@[simp] theorem storeElem_platform (a : Word) (v : Elem) : (storeElem a v s).platform = s.platform := by simp only [storeElem]
@[simp] theorem storeElem_inputs (a : Word) (v : Elem) : (storeElem a v s).inputs = s.inputs := by simp only [storeElem]

@[simp] theorem setReply_fsm (r : Reply) : (setReply r s).fsm = s.fsm := rfl
@[simp] theorem setReply_done (r : Reply) : (setReply r s).done = s.done := rfl
@[simp] theorem setReply_ovr (r : Reply) : (setReply r s).ovr = s.ovr := rfl
@[simp] theorem setReply_err (r : Reply) : (setReply r s).err = s.err := rfl
@[simp] theorem setReply_irqEn (r : Reply) : (setReply r s).irqEn = s.irqEn := rfl
@[simp] theorem setReply_bflyCount (r : Reply) : (setReply r s).bflyCount = s.bflyCount := rfl
@[simp] theorem setReply_faultAddr (r : Reply) : (setReply r s).faultAddr = s.faultAddr := rfl
@[simp] theorem setReply_ntt (r : Reply) : (setReply r s).ntt = s.ntt := rfl
@[simp] theorem setReply_x (r : Reply) : (setReply r s).x = s.x := rfl
@[simp] theorem setReply_y (r : Reply) : (setReply r s).y = s.y := rfl
@[simp] theorem setReply_res (r : Reply) : (setReply r s).res = s.res := rfl
@[simp] theorem setReply_lx (r : Reply) : (setReply r s).lx = s.lx := rfl
@[simp] theorem setReply_ly (r : Reply) : (setReply r s).ly = s.ly := rfl
@[simp] theorem setReply_lat (r : Reply) : (setReply r s).lat = s.lat := rfl
@[simp] theorem setReply_o (r : Reply) : (setReply r s).o = s.o := rfl
@[simp] theorem setReply_n (r : Reply) : (setReply r s).n = s.n := rfl
@[simp] theorem setReply_hung (r : Reply) : (setReply r s).hung = s.hung := rfl
@[simp] theorem setReply_raced (r : Reply) : (setReply r s).raced = s.raced := rfl
@[simp] theorem setReply_mem (r : Reply) : (setReply r s).mem = s.mem := rfl
@[simp] theorem setReply_pending (r : Reply) : (setReply r s).pending = s.pending := rfl
@[simp] theorem setReply_reply (r : Reply) : (setReply r s).reply = r := rfl
@[simp] theorem setReply_draws (r : Reply) : (setReply r s).draws = s.draws := rfl
@[simp] theorem setReply_platform (r : Reply) : (setReply r s).platform = s.platform := rfl
@[simp] theorem setReply_inputs (r : Reply) : (setReply r s).inputs = s.inputs := rfl

@[simp] theorem takeInput_fsm (l : List Event) : (takeInput l s).fsm = s.fsm := rfl
@[simp] theorem takeInput_done (l : List Event) : (takeInput l s).done = s.done := rfl
@[simp] theorem takeInput_ovr (l : List Event) : (takeInput l s).ovr = s.ovr := rfl
@[simp] theorem takeInput_err (l : List Event) : (takeInput l s).err = s.err := rfl
@[simp] theorem takeInput_irqEn (l : List Event) : (takeInput l s).irqEn = s.irqEn := rfl
@[simp] theorem takeInput_bflyCount (l : List Event) : (takeInput l s).bflyCount = s.bflyCount := rfl
@[simp] theorem takeInput_faultAddr (l : List Event) : (takeInput l s).faultAddr = s.faultAddr := rfl
@[simp] theorem takeInput_ntt (l : List Event) : (takeInput l s).ntt = s.ntt := rfl
@[simp] theorem takeInput_x (l : List Event) : (takeInput l s).x = s.x := rfl
@[simp] theorem takeInput_y (l : List Event) : (takeInput l s).y = s.y := rfl
@[simp] theorem takeInput_res (l : List Event) : (takeInput l s).res = s.res := rfl
@[simp] theorem takeInput_lx (l : List Event) : (takeInput l s).lx = s.lx := rfl
@[simp] theorem takeInput_ly (l : List Event) : (takeInput l s).ly = s.ly := rfl
@[simp] theorem takeInput_lat (l : List Event) : (takeInput l s).lat = s.lat := rfl
@[simp] theorem takeInput_o (l : List Event) : (takeInput l s).o = s.o := rfl
@[simp] theorem takeInput_n (l : List Event) : (takeInput l s).n = s.n := rfl
@[simp] theorem takeInput_hung (l : List Event) : (takeInput l s).hung = s.hung := rfl
@[simp] theorem takeInput_raced (l : List Event) : (takeInput l s).raced = s.raced := rfl
@[simp] theorem takeInput_mem (l : List Event) : (takeInput l s).mem = s.mem := rfl
@[simp] theorem takeInput_pending (l : List Event) : (takeInput l s).pending = s.pending := rfl
@[simp] theorem takeInput_reply (l : List Event) : (takeInput l s).reply = s.reply := rfl
@[simp] theorem takeInput_draws (l : List Event) : (takeInput l s).draws = s.draws := rfl
@[simp] theorem takeInput_platform (l : List Event) : (takeInput l s).platform = s.platform := rfl
@[simp] theorem takeInput_inputs (l : List Event) : (takeInput l s).inputs = l := rfl

@[simp] theorem takeDraws_fsm (k : Nat) : (takeDraws k s).fsm = s.fsm := rfl
@[simp] theorem takeDraws_done (k : Nat) : (takeDraws k s).done = s.done := rfl
@[simp] theorem takeDraws_ovr (k : Nat) : (takeDraws k s).ovr = s.ovr := rfl
@[simp] theorem takeDraws_err (k : Nat) : (takeDraws k s).err = s.err := rfl
@[simp] theorem takeDraws_irqEn (k : Nat) : (takeDraws k s).irqEn = s.irqEn := rfl
@[simp] theorem takeDraws_bflyCount (k : Nat) : (takeDraws k s).bflyCount = s.bflyCount := rfl
@[simp] theorem takeDraws_faultAddr (k : Nat) : (takeDraws k s).faultAddr = s.faultAddr := rfl
@[simp] theorem takeDraws_ntt (k : Nat) : (takeDraws k s).ntt = s.ntt := rfl
@[simp] theorem takeDraws_x (k : Nat) : (takeDraws k s).x = s.x := rfl
@[simp] theorem takeDraws_y (k : Nat) : (takeDraws k s).y = s.y := rfl
@[simp] theorem takeDraws_res (k : Nat) : (takeDraws k s).res = s.res := rfl
@[simp] theorem takeDraws_lx (k : Nat) : (takeDraws k s).lx = s.lx := rfl
@[simp] theorem takeDraws_ly (k : Nat) : (takeDraws k s).ly = s.ly := rfl
@[simp] theorem takeDraws_lat (k : Nat) : (takeDraws k s).lat = s.lat := rfl
@[simp] theorem takeDraws_o (k : Nat) : (takeDraws k s).o = s.o := rfl
@[simp] theorem takeDraws_n (k : Nat) : (takeDraws k s).n = s.n := rfl
@[simp] theorem takeDraws_hung (k : Nat) : (takeDraws k s).hung = s.hung := rfl
@[simp] theorem takeDraws_raced (k : Nat) : (takeDraws k s).raced = s.raced := rfl
@[simp] theorem takeDraws_mem (k : Nat) : (takeDraws k s).mem = s.mem := rfl
@[simp] theorem takeDraws_pending (k : Nat) : (takeDraws k s).pending = s.pending := rfl
@[simp] theorem takeDraws_reply (k : Nat) : (takeDraws k s).reply = s.reply := rfl
@[simp] theorem takeDraws_draws (k : Nat) : (takeDraws k s).draws = s.draws + k := rfl
@[simp] theorem takeDraws_platform (k : Nat) : (takeDraws k s).platform = s.platform := rfl
@[simp] theorem takeDraws_inputs (k : Nat) : (takeDraws k s).inputs = s.inputs := rfl

@[simp] theorem bflyDone_fsm : (bflyDone s).fsm = s.fsm := rfl
@[simp] theorem bflyDone_done : (bflyDone s).done = s.done := rfl
@[simp] theorem bflyDone_ovr : (bflyDone s).ovr = s.ovr := rfl
@[simp] theorem bflyDone_err : (bflyDone s).err = s.err := rfl
@[simp] theorem bflyDone_irqEn : (bflyDone s).irqEn = s.irqEn := rfl
@[simp] theorem bflyDone_bflyCount : (bflyDone s).bflyCount = s.bflyCount + 1 := rfl
@[simp] theorem bflyDone_faultAddr : (bflyDone s).faultAddr = s.faultAddr := rfl
@[simp] theorem bflyDone_ntt : (bflyDone s).ntt = s.ntt := rfl
@[simp] theorem bflyDone_x : (bflyDone s).x = s.x := rfl
@[simp] theorem bflyDone_y : (bflyDone s).y = s.y := rfl
@[simp] theorem bflyDone_res : (bflyDone s).res = s.res := rfl
@[simp] theorem bflyDone_lx : (bflyDone s).lx = s.lx := rfl
@[simp] theorem bflyDone_ly : (bflyDone s).ly = s.ly := rfl
@[simp] theorem bflyDone_lat : (bflyDone s).lat = s.lat := rfl
@[simp] theorem bflyDone_o : (bflyDone s).o = advance s.o s.lat.dist.toNat := rfl
@[simp] theorem bflyDone_n : (bflyDone s).n = s.n := rfl
@[simp] theorem bflyDone_hung : (bflyDone s).hung = s.hung := rfl
@[simp] theorem bflyDone_raced : (bflyDone s).raced = s.raced := rfl
@[simp] theorem bflyDone_mem : (bflyDone s).mem = s.mem := rfl
@[simp] theorem bflyDone_pending : (bflyDone s).pending = s.pending := rfl
@[simp] theorem bflyDone_reply : (bflyDone s).reply = s.reply := rfl
@[simp] theorem bflyDone_draws : (bflyDone s).draws = s.draws := rfl
@[simp] theorem bflyDone_platform : (bflyDone s).platform = s.platform := rfl
@[simp] theorem bflyDone_inputs : (bflyDone s).inputs = s.inputs := rfl

@[simp] theorem acceptMul_fsm : (acceptMul s).fsm = .mulBusy := rfl
@[simp] theorem acceptMul_done : (acceptMul s).done = false := rfl
@[simp] theorem acceptMul_ovr : (acceptMul s).ovr = s.ovr := rfl
@[simp] theorem acceptMul_err : (acceptMul s).err = 0 := rfl
@[simp] theorem acceptMul_irqEn : (acceptMul s).irqEn = s.irqEn := rfl
@[simp] theorem acceptMul_bflyCount : (acceptMul s).bflyCount = s.bflyCount := rfl
@[simp] theorem acceptMul_faultAddr : (acceptMul s).faultAddr = 0 := rfl
@[simp] theorem acceptMul_ntt : (acceptMul s).ntt = s.ntt := rfl
@[simp] theorem acceptMul_x : (acceptMul s).x = s.x := rfl
@[simp] theorem acceptMul_y : (acceptMul s).y = s.y := rfl
@[simp] theorem acceptMul_res : (acceptMul s).res = s.res := rfl
@[simp] theorem acceptMul_lx : (acceptMul s).lx = s.x.toElem := rfl
@[simp] theorem acceptMul_ly : (acceptMul s).ly = s.y.toElem := rfl
@[simp] theorem acceptMul_lat : (acceptMul s).lat = s.lat := rfl
@[simp] theorem acceptMul_o : (acceptMul s).o = s.o := rfl
@[simp] theorem acceptMul_n : (acceptMul s).n = s.n := rfl
@[simp] theorem acceptMul_hung : (acceptMul s).hung = s.hung := rfl
@[simp] theorem acceptMul_raced : (acceptMul s).raced = s.raced := rfl
@[simp] theorem acceptMul_mem : (acceptMul s).mem = s.mem := rfl
@[simp] theorem acceptMul_pending : (acceptMul s).pending = s.pending := rfl
@[simp] theorem acceptMul_reply : (acceptMul s).reply = s.reply := rfl
@[simp] theorem acceptMul_draws : (acceptMul s).draws = s.draws := rfl
@[simp] theorem acceptMul_platform : (acceptMul s).platform = s.platform := rfl
@[simp] theorem acceptMul_inputs : (acceptMul s).inputs = s.inputs := rfl

@[simp] theorem acceptNtt_fsm : (acceptNtt s).fsm = .nttBusy := rfl
@[simp] theorem acceptNtt_done : (acceptNtt s).done = false := rfl
@[simp] theorem acceptNtt_ovr : (acceptNtt s).ovr = s.ovr := rfl
@[simp] theorem acceptNtt_err : (acceptNtt s).err = 0 := rfl
@[simp] theorem acceptNtt_irqEn : (acceptNtt s).irqEn = s.irqEn := rfl
@[simp] theorem acceptNtt_bflyCount : (acceptNtt s).bflyCount = 0 := rfl
@[simp] theorem acceptNtt_faultAddr : (acceptNtt s).faultAddr = 0 := rfl
@[simp] theorem acceptNtt_ntt : (acceptNtt s).ntt = s.ntt := rfl
@[simp] theorem acceptNtt_x : (acceptNtt s).x = s.x := rfl
@[simp] theorem acceptNtt_y : (acceptNtt s).y = s.y := rfl
@[simp] theorem acceptNtt_res : (acceptNtt s).res = s.res := rfl
@[simp] theorem acceptNtt_lx : (acceptNtt s).lx = s.lx := rfl
@[simp] theorem acceptNtt_ly : (acceptNtt s).ly = s.ly := rfl
@[simp] theorem acceptNtt_lat : (acceptNtt s).lat = s.ntt := rfl
@[simp] theorem acceptNtt_o : (acceptNtt s).o = 0 := rfl
@[simp] theorem acceptNtt_n : (acceptNtt s).n = loopLength s.ntt := rfl
@[simp] theorem acceptNtt_hung : (acceptNtt s).hung = false := rfl
@[simp] theorem acceptNtt_raced : (acceptNtt s).raced = touchesNotMemory s.platform s.ntt (loopLength s.ntt) := rfl
@[simp] theorem acceptNtt_mem : (acceptNtt s).mem = s.mem := rfl
@[simp] theorem acceptNtt_pending : (acceptNtt s).pending = s.pending := rfl
@[simp] theorem acceptNtt_reply : (acceptNtt s).reply = s.reply := rfl
@[simp] theorem acceptNtt_draws : (acceptNtt s).draws = s.draws := rfl
@[simp] theorem acceptNtt_platform : (acceptNtt s).platform = s.platform := rfl
@[simp] theorem acceptNtt_inputs : (acceptNtt s).inputs = s.inputs := rfl

@[simp] theorem mulStep_fsm : (mulStep s).fsm = .idle := rfl
@[simp] theorem mulStep_done : (mulStep s).done = true := rfl
@[simp] theorem mulStep_ovr : (mulStep s).ovr = s.ovr := rfl
@[simp] theorem mulStep_err : (mulStep s).err = 0 := rfl
@[simp] theorem mulStep_irqEn : (mulStep s).irqEn = s.irqEn := rfl
@[simp] theorem mulStep_bflyCount : (mulStep s).bflyCount = s.bflyCount := rfl
@[simp] theorem mulStep_faultAddr : (mulStep s).faultAddr = s.faultAddr := rfl
@[simp] theorem mulStep_ntt : (mulStep s).ntt = s.ntt := rfl
@[simp] theorem mulStep_x : (mulStep s).x = s.x := rfl
@[simp] theorem mulStep_y : (mulStep s).y = s.y := rfl
@[simp] theorem mulStep_res : (mulStep s).res = Limbs.ofElem (mulResult s.lx s.ly s.draws) := rfl
@[simp] theorem mulStep_lx : (mulStep s).lx = s.lx := rfl
@[simp] theorem mulStep_ly : (mulStep s).ly = s.ly := rfl
@[simp] theorem mulStep_lat : (mulStep s).lat = s.lat := rfl
@[simp] theorem mulStep_o : (mulStep s).o = s.o := rfl
@[simp] theorem mulStep_n : (mulStep s).n = s.n := rfl
@[simp] theorem mulStep_hung : (mulStep s).hung = s.hung := rfl
@[simp] theorem mulStep_raced : (mulStep s).raced = s.raced := rfl
@[simp] theorem mulStep_mem : (mulStep s).mem = s.mem := rfl
@[simp] theorem mulStep_pending : (mulStep s).pending = s.pending := rfl
@[simp] theorem mulStep_reply : (mulStep s).reply = s.reply := rfl
@[simp] theorem mulStep_draws : (mulStep s).draws = s.draws + mulDraws s.ly := rfl
@[simp] theorem mulStep_platform : (mulStep s).platform = s.platform := rfl
@[simp] theorem mulStep_inputs : (mulStep s).inputs = s.inputs := rfl

end Sys2Proof.Machine
end

