-- ==== Sys2Proof/Laws/Ops.lean ====
section
/-! SUPPORT. What each shared operation of the engine can do, said once: the end of a raced layer, the
bus-error abort, an element access, a butterfly. -/

namespace Sys2Proof.Machine

open Sys2Proof.Config (any256)

/-! ### The walk (R173, R176) -/

/-- A walk with fuel enough goes on from each offset it visits to the next, while that is below the end. -/
theorem advance_mem_walk {d n o : Nat} (fuel x : Nat) (hf : n ≤ x + 32 * fuel) (ho : o ∈ walk d n fuel x)
    (hn : advance o d < n) : advance o d ∈ walk d n fuel x := by
  induction fuel generalizing x with
  | zero => cases ho
  | succ fuel ih =>
    unfold walk at ho ⊢
    split at ho
    · rename_i hx
      rw [if_pos hx]
      have ha : x + 32 ≤ advance x d := by unfold advance; split <;> omega
      apply List.mem_cons_of_mem
      rcases List.mem_cons.mp ho with rfl | ho
      · cases fuel with
        | zero => omega
        | succ fuel => unfold walk; rw [if_pos hn]; exact List.mem_cons_self
      · exact ih _ (by omega) ho
    · cases ho

/-- A layer that has a butterfly begins at offset 0. -/
theorem zero_mem_offsets (l : NttParams) {n : Word} (h : 0 < n.toNat) : 0 ∈ offsets l n := by
  unfold offsets
  obtain ⟨f, hf⟩ : ∃ f, (n.toNat + 31) / 32 = f + 1 := ⟨(n.toNat + 31) / 32 - 1, by omega⟩
  rw [hf, walk, if_pos h]
  exact List.mem_cons_self

/-- The offset after one that a layer visits is visited too, while it is below the end. -/
theorem advance_mem_offsets {l : NttParams} {n : Word} {o : Nat} (ho : o ∈ offsets l n)
    (h : advance o l.dist.toNat < n.toNat) : advance o l.dist.toNat ∈ offsets l n :=
  advance_mem_walk _ 0 (by omega) ho h

/-! ### The lost destinations of a layer (R78, R85) -/

/-- Scrambling keeps the canonical form. -/
theorem scramble_wf (l : NttParams) (os : List Nat) {m : Memory} (k : Nat) (hm : m.wf = true) :
    (scramble l os m k).1.wf = true := by
  induction os generalizing m k with
  | nil => exact hm
  | cons o os ih => exact ih _ (Memory.wf_setElem _ _ (Memory.wf_setElem _ _ hm))

/-- Scrambling changes only destination bytes of the butterflies listed. -/
theorem scramble_read_outside (l : NttParams) (os : List Nat) (m : Memory) (k : Nat) (b : Word)
    (h : ∀ o ∈ os, inElem (out1Addr l o) b = false ∧ inElem (out2Addr l o) b = false) :
    (scramble l os m k).1.read b.toNat = m.read b.toNat := by
  induction os generalizing m k with
  | nil => rfl
  | cons o os ih =>
    unfold scramble
    rw [ih _ _ fun o' ho' => h o' (List.mem_cons_of_mem o ho'),
      Memory.read_setElem_outside _ _ _ _ (h o List.mem_cons_self).2,
      Memory.read_setElem_outside _ _ _ _ (h o List.mem_cons_self).1]

/-- Scrambling draws two values for each butterfly. -/
theorem scramble_draws (l : NttParams) (os : List Nat) (m : Memory) (k : Nat) :
    (scramble l os m k).2 = k + 2 * os.length := by
  induction os generalizing m k with
  | nil => rfl
  | cons o os ih => rw [scramble, ih, List.length_cons]; omega

/-- Scrambling leaves a byte of one of its draws in every destination byte of the butterflies listed. -/
theorem scramble_read_inside (l : NttParams) (os : List Nat) {m : Memory} (k : Nat) (hm : m.wf = true) (b : Word)
    {o : Nat} (ho : o ∈ os) (h : inElem (out1Addr l o) b = true ∨ inElem (out2Addr l o) b = true) :
    ∃ j i, k ≤ j ∧ j < (scramble l os m k).2 ∧ i < 32 ∧
      (scramble l os m k).1.read b.toNat = (any256 j).extractLsb' (8 * i) 8 := by
  induction os generalizing m k o with
  | nil => cases ho
  | cons o' os ih =>
    have hm1 := Memory.wf_setElem (out1Addr l o') (any256 k) hm
    have hm2 := Memory.wf_setElem (out2Addr l o') (any256 (k + 1)) hm1
    have hd := scramble_draws l (o' :: os) m k
    rw [List.length_cons] at hd
    by_cases hin : ∃ q ∈ os, inElem (out1Addr l q) b = true ∨ inElem (out2Addr l q) b = true
    · obtain ⟨q, hq, hb⟩ := hin
      obtain ⟨j, i, h1, h2, h3⟩ := ih (k + 2) hm2 hq hb
      rw [scramble]
      exact ⟨j, i, by omega, h2, h3⟩
    · have hrest : (scramble l (o' :: os) m k).1.read b.toNat =
          ((m.setElem (out1Addr l o') (any256 k)).setElem (out2Addr l o') (any256 (k + 1))).read b.toNat := by
        rw [scramble]
        apply scramble_read_outside
        intro q hq
        constructor <;> rw [← Bool.not_eq_true] <;> intro hb
        · exact hin ⟨q, hq, .inl hb⟩
        · exact hin ⟨q, hq, .inr hb⟩
      have ho' : inElem (out1Addr l o') b = true ∨ inElem (out2Addr l o') b = true := by
        rcases List.mem_cons.mp ho with rfl | ho
        · exact h
        · exact absurd ⟨o, ho, h⟩ hin
      rw [hrest]
      by_cases h2 : inElem (out2Addr l o') b = true
      · obtain ⟨i, hi, hv⟩ := Memory.read_setElem_byte (out2Addr l o') (any256 (k + 1)) b hm1 h2
        exact ⟨k + 1, i, by omega, by omega, hi, hv⟩
      · obtain ⟨i, hi, hv⟩ := Memory.read_setElem_byte (out1Addr l o') (any256 k) b hm (ho'.resolve_right h2)
        refine ⟨k, i, le_refl k, by omega, hi, ?_⟩
        rw [Memory.read_setElem_outside _ _ _ _ (by simpa using h2), hv]

/-- A layer that is not raced ends with its values as they are. -/
theorem settleRace_of_not_raced {s : State} (h : s.raced = false) : settleRace s = s := by
  simp [settleRace, h]

@[simp] theorem settleRace_raced (s : State) : (settleRace s).raced = false := by
  unfold settleRace; split <;> simp_all
@[simp] theorem settleRace_fsm (s : State) : (settleRace s).fsm = s.fsm := by unfold settleRace; split <;> rfl
@[simp] theorem settleRace_done (s : State) : (settleRace s).done = s.done := by unfold settleRace; split <;> rfl
@[simp] theorem settleRace_ovr (s : State) : (settleRace s).ovr = s.ovr := by unfold settleRace; split <;> rfl
@[simp] theorem settleRace_err (s : State) : (settleRace s).err = s.err := by unfold settleRace; split <;> rfl
@[simp] theorem settleRace_irqEn (s : State) : (settleRace s).irqEn = s.irqEn := by unfold settleRace; split <;> rfl
@[simp] theorem settleRace_bflyCount (s : State) : (settleRace s).bflyCount = s.bflyCount := by unfold settleRace; split <;> rfl
@[simp] theorem settleRace_faultAddr (s : State) : (settleRace s).faultAddr = s.faultAddr := by unfold settleRace; split <;> rfl
@[simp] theorem settleRace_ntt (s : State) : (settleRace s).ntt = s.ntt := by unfold settleRace; split <;> rfl
@[simp] theorem settleRace_x (s : State) : (settleRace s).x = s.x := by unfold settleRace; split <;> rfl
@[simp] theorem settleRace_y (s : State) : (settleRace s).y = s.y := by unfold settleRace; split <;> rfl
@[simp] theorem settleRace_res (s : State) : (settleRace s).res = s.res := by unfold settleRace; split <;> rfl
@[simp] theorem settleRace_lx (s : State) : (settleRace s).lx = s.lx := by unfold settleRace; split <;> rfl
@[simp] theorem settleRace_ly (s : State) : (settleRace s).ly = s.ly := by unfold settleRace; split <;> rfl
@[simp] theorem settleRace_lat (s : State) : (settleRace s).lat = s.lat := by unfold settleRace; split <;> rfl
@[simp] theorem settleRace_o (s : State) : (settleRace s).o = s.o := by unfold settleRace; split <;> rfl
@[simp] theorem settleRace_n (s : State) : (settleRace s).n = s.n := by unfold settleRace; split <;> rfl
@[simp] theorem settleRace_hung (s : State) : (settleRace s).hung = s.hung := by unfold settleRace; split <;> rfl
@[simp] theorem settleRace_pending (s : State) : (settleRace s).pending = s.pending := by unfold settleRace; split <;> rfl
@[simp] theorem settleRace_reply (s : State) : (settleRace s).reply = s.reply := by unfold settleRace; split <;> rfl
@[simp] theorem settleRace_platform (s : State) : (settleRace s).platform = s.platform := by unfold settleRace; split <;> rfl
@[simp] theorem settleRace_inputs (s : State) : (settleRace s).inputs = s.inputs := by unfold settleRace; split <;> rfl

theorem settleRace_wf {s : State} (hm : s.mem.wf = true) : (settleRace s).mem.wf = true := by
  unfold settleRace
  split
  · exact scramble_wf _ _ _ hm
  · exact hm

/-- The end of a raced layer changes no byte outside the layer's write footprint (R85). -/
theorem settleRace_read_outside (s : State) (b : Word) (h : inWriteFootprint s.lat s.n b = false) :
    (settleRace s).mem.read b.toNat = s.mem.read b.toNat := by
  unfold settleRace
  split
  · apply scramble_read_outside
    intro o ho
    simp only [inWriteFootprint, List.any_eq_false, Bool.or_eq_true, not_or, Bool.not_eq_true] at h
    exact h o ho
  · rfl

/-! ### The bus-error abort (R262) -/

@[simp] theorem raiseBusError_fsm (a : Word) (s : State) : (raiseBusError a s).fsm = .idle := by simp [raiseBusError]
@[simp] theorem raiseBusError_done (a : Word) (s : State) : (raiseBusError a s).done = true := by simp [raiseBusError]
@[simp] theorem raiseBusError_ovr (a : Word) (s : State) : (raiseBusError a s).ovr = s.ovr := by simp [raiseBusError]
@[simp] theorem raiseBusError_err (a : Word) (s : State) : (raiseBusError a s).err = 2 := by simp [raiseBusError]
@[simp] theorem raiseBusError_irqEn (a : Word) (s : State) : (raiseBusError a s).irqEn = s.irqEn := by simp [raiseBusError]
@[simp] theorem raiseBusError_bflyCount (a : Word) (s : State) : (raiseBusError a s).bflyCount = s.bflyCount := by simp [raiseBusError]
@[simp] theorem raiseBusError_faultAddr (a : Word) (s : State) : (raiseBusError a s).faultAddr = a := by simp [raiseBusError]
@[simp] theorem raiseBusError_ntt (a : Word) (s : State) : (raiseBusError a s).ntt = s.ntt := by simp [raiseBusError]
@[simp] theorem raiseBusError_x (a : Word) (s : State) : (raiseBusError a s).x = s.x := by simp [raiseBusError]
@[simp] theorem raiseBusError_y (a : Word) (s : State) : (raiseBusError a s).y = s.y := by simp [raiseBusError]
@[simp] theorem raiseBusError_res (a : Word) (s : State) : (raiseBusError a s).res = s.res := by simp [raiseBusError]
@[simp] theorem raiseBusError_lx (a : Word) (s : State) : (raiseBusError a s).lx = s.lx := by simp [raiseBusError]
@[simp] theorem raiseBusError_ly (a : Word) (s : State) : (raiseBusError a s).ly = s.ly := by simp [raiseBusError]
@[simp] theorem raiseBusError_lat (a : Word) (s : State) : (raiseBusError a s).lat = s.lat := by simp [raiseBusError]
@[simp] theorem raiseBusError_o (a : Word) (s : State) : (raiseBusError a s).o = s.o := by simp [raiseBusError]
@[simp] theorem raiseBusError_n (a : Word) (s : State) : (raiseBusError a s).n = s.n := by simp [raiseBusError]
@[simp] theorem raiseBusError_hung (a : Word) (s : State) : (raiseBusError a s).hung = s.hung := by simp [raiseBusError]
@[simp] theorem raiseBusError_raced (a : Word) (s : State) : (raiseBusError a s).raced = false := by simp [raiseBusError]
@[simp] theorem raiseBusError_mem (a : Word) (s : State) : (raiseBusError a s).mem = (settleRace s).mem := by simp [raiseBusError]
@[simp] theorem raiseBusError_pending (a : Word) (s : State) : (raiseBusError a s).pending = s.pending := by simp [raiseBusError]
@[simp] theorem raiseBusError_reply (a : Word) (s : State) : (raiseBusError a s).reply = s.reply := by simp [raiseBusError]
@[simp] theorem raiseBusError_draws (a : Word) (s : State) : (raiseBusError a s).draws = (settleRace s).draws := by simp [raiseBusError]
@[simp] theorem raiseBusError_platform (a : Word) (s : State) : (raiseBusError a s).platform = s.platform := by simp [raiseBusError]
@[simp] theorem raiseBusError_inputs (a : Word) (s : State) : (raiseBusError a s).inputs = s.inputs := by simp [raiseBusError]

/-! ### A failed access (R262) -/

@[simp] theorem failedAccess_fsm (kind : AccessKind) (a : Word) (s : State) : (failedAccess kind a s).fsm = s.fsm := by cases kind <;> simp only [failedAccess]
@[simp] theorem failedAccess_done (kind : AccessKind) (a : Word) (s : State) : (failedAccess kind a s).done = s.done := by cases kind <;> simp only [failedAccess]
@[simp] theorem failedAccess_ovr (kind : AccessKind) (a : Word) (s : State) : (failedAccess kind a s).ovr = s.ovr := by cases kind <;> simp only [failedAccess]
@[simp] theorem failedAccess_err (kind : AccessKind) (a : Word) (s : State) : (failedAccess kind a s).err = s.err := by cases kind <;> simp only [failedAccess]
@[simp] theorem failedAccess_irqEn (kind : AccessKind) (a : Word) (s : State) : (failedAccess kind a s).irqEn = s.irqEn := by cases kind <;> simp only [failedAccess]
@[simp] theorem failedAccess_bflyCount (kind : AccessKind) (a : Word) (s : State) : (failedAccess kind a s).bflyCount = s.bflyCount := by cases kind <;> simp only [failedAccess]
@[simp] theorem failedAccess_faultAddr (kind : AccessKind) (a : Word) (s : State) : (failedAccess kind a s).faultAddr = s.faultAddr := by cases kind <;> simp only [failedAccess]
@[simp] theorem failedAccess_ntt (kind : AccessKind) (a : Word) (s : State) : (failedAccess kind a s).ntt = s.ntt := by cases kind <;> simp only [failedAccess]
@[simp] theorem failedAccess_x (kind : AccessKind) (a : Word) (s : State) : (failedAccess kind a s).x = s.x := by cases kind <;> simp only [failedAccess]
@[simp] theorem failedAccess_y (kind : AccessKind) (a : Word) (s : State) : (failedAccess kind a s).y = s.y := by cases kind <;> simp only [failedAccess]
@[simp] theorem failedAccess_res (kind : AccessKind) (a : Word) (s : State) : (failedAccess kind a s).res = s.res := by cases kind <;> simp only [failedAccess]
@[simp] theorem failedAccess_lx (kind : AccessKind) (a : Word) (s : State) : (failedAccess kind a s).lx = s.lx := by cases kind <;> simp only [failedAccess]
@[simp] theorem failedAccess_ly (kind : AccessKind) (a : Word) (s : State) : (failedAccess kind a s).ly = s.ly := by cases kind <;> simp only [failedAccess]
@[simp] theorem failedAccess_lat (kind : AccessKind) (a : Word) (s : State) : (failedAccess kind a s).lat = s.lat := by cases kind <;> simp only [failedAccess]
@[simp] theorem failedAccess_o (kind : AccessKind) (a : Word) (s : State) : (failedAccess kind a s).o = s.o := by cases kind <;> simp only [failedAccess]
@[simp] theorem failedAccess_n (kind : AccessKind) (a : Word) (s : State) : (failedAccess kind a s).n = s.n := by cases kind <;> simp only [failedAccess]
@[simp] theorem failedAccess_hung (kind : AccessKind) (a : Word) (s : State) : (failedAccess kind a s).hung = s.hung := by cases kind <;> simp only [failedAccess]
@[simp] theorem failedAccess_raced (kind : AccessKind) (a : Word) (s : State) : (failedAccess kind a s).raced = s.raced := by cases kind <;> simp only [failedAccess]
@[simp] theorem failedAccess_pending (kind : AccessKind) (a : Word) (s : State) : (failedAccess kind a s).pending = s.pending := by cases kind <;> simp only [failedAccess]
@[simp] theorem failedAccess_reply (kind : AccessKind) (a : Word) (s : State) : (failedAccess kind a s).reply = s.reply := by cases kind <;> simp only [failedAccess]
@[simp] theorem failedAccess_platform (kind : AccessKind) (a : Word) (s : State) : (failedAccess kind a s).platform = s.platform := by cases kind <;> simp only [failedAccess]
@[simp] theorem failedAccess_inputs (kind : AccessKind) (a : Word) (s : State) : (failedAccess kind a s).inputs = s.inputs := by cases kind <;> simp only [failedAccess]

theorem failedAccess_wf (kind : AccessKind) (a : Word) {s : State} (hm : s.mem.wf = true) :
    (failedAccess kind a s).mem.wf = true := by
  cases kind with
  | read => exact hm
  | write => exact Memory.wf_writeBytes _ _ _ _ hm

/-- A failed access changes no byte outside the element. -/
theorem failedAccess_read_outside (kind : AccessKind) (a : Word) (s : State) (b : Word) (h : inElem a b = false) :
    (failedAccess kind a s).mem.read b.toNat = s.mem.read b.toNat := by
  cases kind with
  | read => rfl
  | write =>
    apply Memory.read_writeBytes_outside
    intro i hi hb
    have := (inElem_iff a b).mpr ⟨i, hi, hb⟩
    simp_all

/-- A failed access changes no byte the platform does not admit for writing. -/
theorem failedAccess_read_unadmitted (kind : AccessKind) (a : Word) (s : State) (b : Word)
    (h : s.platform.admitsByte .write b = false) :
    (failedAccess kind a s).mem.read b.toNat = s.mem.read b.toNat := by
  cases kind with
  | read => rfl
  | write => exact Memory.read_writeBytes_unselected _ _ _ _ _ _ h

/-! ### One element access (R186) -/

theorem elemAccess_completes {kind : AccessKind} {a : Word} {s : State} (go : State)
    (h : s.platform.response kind a = .completes) : elemAccess kind a s go = go := by
  simp [elemAccess, h]

theorem elemAccess_error {kind : AccessKind} {a : Word} {s : State} (go : State)
    (h : s.platform.response kind a = .error) :
    elemAccess kind a s go = raiseBusError a (failedAccess kind a s) := by
  simp [elemAccess, h]

theorem elemAccess_never {kind : AccessKind} {a : Word} {s : State} (go : State)
    (h : s.platform.response kind a = .never) : elemAccess kind a s go = hang s := by
  simp [elemAccess, h]

/-- An element access goes on, aborts the command or waits for ever. -/
theorem elemAccess_cases (kind : AccessKind) (a : Word) (s go : State) :
    elemAccess kind a s go = go ∨ elemAccess kind a s go = raiseBusError a (failedAccess kind a s) ∨
      elemAccess kind a s go = hang s := by
  unfold elemAccess
  split
  · exact .inl rfl
  · exact .inr (.inl rfl)
  · exact .inr (.inr rfl)

/-! ### A butterfly (R186) -/

@[simp] theorem bflyOneWritten_fsm (s : State) : (bflyOneWritten s).fsm = s.fsm := by simp [bflyOneWritten]
@[simp] theorem bflyOneWritten_done (s : State) : (bflyOneWritten s).done = s.done := by simp [bflyOneWritten]
@[simp] theorem bflyOneWritten_ovr (s : State) : (bflyOneWritten s).ovr = s.ovr := by simp [bflyOneWritten]
@[simp] theorem bflyOneWritten_err (s : State) : (bflyOneWritten s).err = s.err := by simp [bflyOneWritten]
@[simp] theorem bflyOneWritten_irqEn (s : State) : (bflyOneWritten s).irqEn = s.irqEn := by simp [bflyOneWritten]
@[simp] theorem bflyOneWritten_bflyCount (s : State) : (bflyOneWritten s).bflyCount = s.bflyCount := by simp [bflyOneWritten]
@[simp] theorem bflyOneWritten_faultAddr (s : State) : (bflyOneWritten s).faultAddr = s.faultAddr := by simp [bflyOneWritten]
@[simp] theorem bflyOneWritten_ntt (s : State) : (bflyOneWritten s).ntt = s.ntt := by simp [bflyOneWritten]
@[simp] theorem bflyOneWritten_x (s : State) : (bflyOneWritten s).x = s.x := by simp [bflyOneWritten]
@[simp] theorem bflyOneWritten_y (s : State) : (bflyOneWritten s).y = s.y := by simp [bflyOneWritten]
@[simp] theorem bflyOneWritten_res (s : State) : (bflyOneWritten s).res = s.res := by simp [bflyOneWritten]
@[simp] theorem bflyOneWritten_lx (s : State) : (bflyOneWritten s).lx = s.lx := by simp [bflyOneWritten]
@[simp] theorem bflyOneWritten_ly (s : State) : (bflyOneWritten s).ly = s.ly := by simp [bflyOneWritten]
@[simp] theorem bflyOneWritten_lat (s : State) : (bflyOneWritten s).lat = s.lat := by simp [bflyOneWritten]
@[simp] theorem bflyOneWritten_o (s : State) : (bflyOneWritten s).o = s.o := by simp [bflyOneWritten]
@[simp] theorem bflyOneWritten_n (s : State) : (bflyOneWritten s).n = s.n := by simp [bflyOneWritten]
@[simp] theorem bflyOneWritten_hung (s : State) : (bflyOneWritten s).hung = s.hung := by simp [bflyOneWritten]
@[simp] theorem bflyOneWritten_raced (s : State) : (bflyOneWritten s).raced = s.raced := by simp [bflyOneWritten]
@[simp] theorem bflyOneWritten_pending (s : State) : (bflyOneWritten s).pending = s.pending := by simp [bflyOneWritten]
@[simp] theorem bflyOneWritten_reply (s : State) : (bflyOneWritten s).reply = s.reply := by simp [bflyOneWritten]
@[simp] theorem bflyOneWritten_platform (s : State) : (bflyOneWritten s).platform = s.platform := by simp [bflyOneWritten]
@[simp] theorem bflyOneWritten_inputs (s : State) : (bflyOneWritten s).inputs = s.inputs := by simp [bflyOneWritten]
@[simp] theorem bflyBothWritten_fsm (s : State) : (bflyBothWritten s).fsm = s.fsm := by simp [bflyBothWritten, bflyOneWritten]
@[simp] theorem bflyBothWritten_done (s : State) : (bflyBothWritten s).done = s.done := by simp [bflyBothWritten, bflyOneWritten]
@[simp] theorem bflyBothWritten_ovr (s : State) : (bflyBothWritten s).ovr = s.ovr := by simp [bflyBothWritten, bflyOneWritten]
@[simp] theorem bflyBothWritten_err (s : State) : (bflyBothWritten s).err = s.err := by simp [bflyBothWritten, bflyOneWritten]
@[simp] theorem bflyBothWritten_irqEn (s : State) : (bflyBothWritten s).irqEn = s.irqEn := by simp [bflyBothWritten, bflyOneWritten]
@[simp] theorem bflyBothWritten_bflyCount (s : State) : (bflyBothWritten s).bflyCount = s.bflyCount := by simp [bflyBothWritten, bflyOneWritten]
@[simp] theorem bflyBothWritten_faultAddr (s : State) : (bflyBothWritten s).faultAddr = s.faultAddr := by simp [bflyBothWritten, bflyOneWritten]
@[simp] theorem bflyBothWritten_ntt (s : State) : (bflyBothWritten s).ntt = s.ntt := by simp [bflyBothWritten, bflyOneWritten]
@[simp] theorem bflyBothWritten_x (s : State) : (bflyBothWritten s).x = s.x := by simp [bflyBothWritten, bflyOneWritten]
@[simp] theorem bflyBothWritten_y (s : State) : (bflyBothWritten s).y = s.y := by simp [bflyBothWritten, bflyOneWritten]
@[simp] theorem bflyBothWritten_res (s : State) : (bflyBothWritten s).res = s.res := by simp [bflyBothWritten, bflyOneWritten]
@[simp] theorem bflyBothWritten_lx (s : State) : (bflyBothWritten s).lx = s.lx := by simp [bflyBothWritten, bflyOneWritten]
@[simp] theorem bflyBothWritten_ly (s : State) : (bflyBothWritten s).ly = s.ly := by simp [bflyBothWritten, bflyOneWritten]
@[simp] theorem bflyBothWritten_lat (s : State) : (bflyBothWritten s).lat = s.lat := by simp [bflyBothWritten, bflyOneWritten]
@[simp] theorem bflyBothWritten_o (s : State) : (bflyBothWritten s).o = s.o := by simp [bflyBothWritten, bflyOneWritten]
@[simp] theorem bflyBothWritten_n (s : State) : (bflyBothWritten s).n = s.n := by simp [bflyBothWritten, bflyOneWritten]
@[simp] theorem bflyBothWritten_hung (s : State) : (bflyBothWritten s).hung = s.hung := by simp [bflyBothWritten, bflyOneWritten]
@[simp] theorem bflyBothWritten_raced (s : State) : (bflyBothWritten s).raced = s.raced := by simp [bflyBothWritten, bflyOneWritten]
@[simp] theorem bflyBothWritten_pending (s : State) : (bflyBothWritten s).pending = s.pending := by simp [bflyBothWritten, bflyOneWritten]
@[simp] theorem bflyBothWritten_reply (s : State) : (bflyBothWritten s).reply = s.reply := by simp [bflyBothWritten, bflyOneWritten]
@[simp] theorem bflyBothWritten_platform (s : State) : (bflyBothWritten s).platform = s.platform := by simp [bflyBothWritten, bflyOneWritten]
@[simp] theorem bflyBothWritten_inputs (s : State) : (bflyBothWritten s).inputs = s.inputs := by simp [bflyBothWritten, bflyOneWritten]

theorem bflyOneWritten_mem (s : State) :
    (bflyOneWritten s).mem = s.mem.setElem (out1Addr s.lat s.o) (bflyResults s).1 := by
  simp [bflyOneWritten]

theorem bflyBothWritten_mem (s : State) :
    (bflyBothWritten s).mem =
      (s.mem.setElem (out1Addr s.lat s.o) (bflyResults s).1).setElem (out2Addr s.lat s.o) (bflyResults s).2 := by
  simp [bflyBothWritten, bflyOneWritten_mem]

/-- What a butterfly step can end in: the whole butterfly; an abort at one of the five accesses, what came
before it performed; or an engine that waits, likewise. -/
theorem bflyStep_cases (s : State) :
    bflyStep s = bflyDone (bflyBothWritten s) ∨
      (∃ a, bflyStep s = raiseBusError a s) ∨
      bflyStep s = raiseBusError (out1Addr s.lat s.o)
        (failedAccess .write (out1Addr s.lat s.o) (takeDraws (bflyTaken s) s)) ∨
      bflyStep s = raiseBusError (out2Addr s.lat s.o) (failedAccess .write (out2Addr s.lat s.o) (bflyOneWritten s)) ∨
      bflyStep s = hang s ∨ bflyStep s = hang (takeDraws (bflyTaken s) s) ∨ bflyStep s = hang (bflyOneWritten s) := by
  unfold bflyStep
  rcases elemAccess_cases .read (in1Addr s.lat s.o) s _ with h | h | h <;> rw [h]
  · rcases elemAccess_cases .read (in2Addr s.lat s.o) s _ with h | h | h <;> rw [h]
    · rcases elemAccess_cases .read (twAddr s.lat s.o) s _ with h | h | h <;> rw [h]
      · rcases elemAccess_cases .write (out1Addr s.lat s.o) (takeDraws (bflyTaken s) s) _ with h | h | h <;> rw [h]
        · rcases elemAccess_cases .write (out2Addr s.lat s.o) (bflyOneWritten s) (bflyDone (bflyBothWritten s))
            with h | h | h <;> rw [h] <;> simp
        · simp
        · simp
      · exact .inr (.inl ⟨_, rfl⟩)
      · simp
    · exact .inr (.inl ⟨_, rfl⟩)
    · simp
  · exact .inr (.inl ⟨_, rfl⟩)
  · simp

/-- All five accesses complete: the whole butterfly is done. -/
theorem bflyStep_completes {s : State} (h1 : s.platform.response .read (in1Addr s.lat s.o) = .completes)
    (h2 : s.platform.response .read (in2Addr s.lat s.o) = .completes)
    (h3 : s.platform.response .read (twAddr s.lat s.o) = .completes)
    (h4 : s.platform.response .write (out1Addr s.lat s.o) = .completes)
    (h5 : s.platform.response .write (out2Addr s.lat s.o) = .completes) :
    bflyStep s = bflyDone (bflyBothWritten s) := by
  unfold bflyStep
  rw [elemAccess_completes _ h1, elemAccess_completes _ h2, elemAccess_completes _ h3,
    elemAccess_completes _ (by simpa using h4), elemAccess_completes _ (by simpa using h5)]

/-! ### A command never stops -/

/-- exec answers a next state for every command in every state. -/
theorem exec_next (i : Instr) (s : State) : ∃ t, exec i s = .next t := by
  cases i <;> simp only [exec, execMul, execNttLayer] <;> split <;> exact ⟨_, rfl⟩

theorem exec_mul_idle {s : State} (h : s.fsm = .idle) : exec .mul s = .next (acceptMul s) := by
  simp [exec, execMul, h]

theorem exec_mul_busy {s : State} (h : s.fsm = .mulBusy) : exec .mul s = .next (mulStep s) := by
  simp [exec, execMul, h]

theorem exec_mul_other {s : State} (h : s.fsm = .nttBusy) : exec .mul s = .next (flagsOverrun s) := by
  simp [exec, execMul, h]

theorem exec_nttLayer_idle {s : State} (h : s.fsm = .idle) : exec .nttLayer s = .next (acceptNtt s) := by
  simp [exec, execNttLayer, h]

theorem exec_nttLayer_busy {s : State} (h : s.fsm = .nttBusy) : exec .nttLayer s = .next (nttStep s) := by
  simp [exec, execNttLayer, h]

theorem exec_nttLayer_other {s : State} (h : s.fsm = .mulBusy) : exec .nttLayer s = .next (flagsOverrun s) := by
  simp [exec, execNttLayer, h]

end Sys2Proof.Machine
end

