-- ==== Sys2Proof/Laws/PerInstr.lean ====
section
/-! SUPPORT. Statements for all commands, one lemma per constructor of Instr. -/

namespace Sys2Proof.Laws.FieldsOfWord

/-- The command is well formed, and the fields of its word are the opcode map's (R100, R103). -/
def Statement (i : Instr) : Prop :=
  WellFormed.instr i = true ∧ splitWord (encode i) = WellFormed.fields i

theorem mul : Statement .mul := by unfold Statement; decide

theorem nttLayer : Statement .nttLayer := by unfold Statement; decide

end Sys2Proof.Laws.FieldsOfWord
end

