-- ==== Sys2Proof/Laws/Step.lean ====
section
/-! SUPPORT. What one event and one step can do, said once. -/

namespace Sys2Proof.Machine

/-! ### The reset event (R291) -/

@[simp] theorem resetEvent_fsm (s : State) : (resetEvent s).fsm = State.reset.fsm := by simp only [resetEvent]
@[simp] theorem resetEvent_done (s : State) : (resetEvent s).done = State.reset.done := by simp only [resetEvent]
@[simp] theorem resetEvent_ovr (s : State) : (resetEvent s).ovr = State.reset.ovr := by simp only [resetEvent]
@[simp] theorem resetEvent_err (s : State) : (resetEvent s).err = State.reset.err := by simp only [resetEvent]
@[simp] theorem resetEvent_irqEn (s : State) : (resetEvent s).irqEn = State.reset.irqEn := by simp only [resetEvent]
@[simp] theorem resetEvent_bflyCount (s : State) : (resetEvent s).bflyCount = State.reset.bflyCount := by simp only [resetEvent]
@[simp] theorem resetEvent_faultAddr (s : State) : (resetEvent s).faultAddr = State.reset.faultAddr := by simp only [resetEvent]
@[simp] theorem resetEvent_ntt (s : State) : (resetEvent s).ntt = State.reset.ntt := by simp only [resetEvent]
@[simp] theorem resetEvent_x (s : State) : (resetEvent s).x = State.reset.x := by simp only [resetEvent]
@[simp] theorem resetEvent_y (s : State) : (resetEvent s).y = State.reset.y := by simp only [resetEvent]
@[simp] theorem resetEvent_res (s : State) : (resetEvent s).res = State.reset.res := by simp only [resetEvent]
@[simp] theorem resetEvent_lx (s : State) : (resetEvent s).lx = State.reset.lx := by simp only [resetEvent]
@[simp] theorem resetEvent_ly (s : State) : (resetEvent s).ly = State.reset.ly := by simp only [resetEvent]
@[simp] theorem resetEvent_lat (s : State) : (resetEvent s).lat = State.reset.lat := by simp only [resetEvent]
@[simp] theorem resetEvent_o (s : State) : (resetEvent s).o = State.reset.o := by simp only [resetEvent]
@[simp] theorem resetEvent_n (s : State) : (resetEvent s).n = State.reset.n := by simp only [resetEvent]
@[simp] theorem resetEvent_hung (s : State) : (resetEvent s).hung = State.reset.hung := by simp only [resetEvent]
@[simp] theorem resetEvent_raced (s : State) : (resetEvent s).raced = State.reset.raced := by simp only [resetEvent]
@[simp] theorem resetEvent_mem (s : State) : (resetEvent s).mem = (resetMemory s).mem := by simp only [resetEvent]
@[simp] theorem resetEvent_pending (s : State) : (resetEvent s).pending = s.pending := by simp only [resetEvent]
@[simp] theorem resetEvent_reply (s : State) : (resetEvent s).reply = s.reply := by simp only [resetEvent]
@[simp] theorem resetEvent_draws (s : State) : (resetEvent s).draws = (resetMemory s).draws := by simp only [resetEvent]
@[simp] theorem resetEvent_platform (s : State) : (resetEvent s).platform = s.platform := by simp only [resetEvent]
@[simp] theorem resetEvent_inputs (s : State) : (resetEvent s).inputs = s.inputs := by simp only [resetEvent]

/-- A reset while no layer runs leaves data memory as it is (R293). -/
theorem resetMemory_of_no_layer {s : State} (h : s.fsm ≠ .nttBusy) : resetMemory s = s := by
  simp [resetMemory, h]

theorem resetInFlight_wf {s : State} (hm : s.mem.wf = true) : (resetInFlight s).mem.wf = true := by
  unfold resetInFlight
  split
  · simp only [scramble_wf _ _ _ hm]
  · exact hm

theorem resetMemory_wf {s : State} (hm : s.mem.wf = true) : (resetMemory s).mem.wf = true := by
  unfold resetMemory
  split
  · exact settleRace_wf (resetInFlight_wf hm)
  · exact hm

/-! ### Register writes (R233) -/

@[simp] theorem writeReg_fsm (s : State) (v : Word) (r : Reg) : (writeReg s v r).fsm = s.fsm := by cases r <;> simp [writeReg]
@[simp] theorem writeReg_err (s : State) (v : Word) (r : Reg) : (writeReg s v r).err = s.err := by cases r <;> simp [writeReg]
@[simp] theorem writeReg_bflyCount (s : State) (v : Word) (r : Reg) : (writeReg s v r).bflyCount = s.bflyCount := by cases r <;> simp [writeReg]
@[simp] theorem writeReg_faultAddr (s : State) (v : Word) (r : Reg) : (writeReg s v r).faultAddr = s.faultAddr := by cases r <;> simp [writeReg]
@[simp] theorem writeReg_res (s : State) (v : Word) (r : Reg) : (writeReg s v r).res = s.res := by cases r <;> simp [writeReg]
@[simp] theorem writeReg_lx (s : State) (v : Word) (r : Reg) : (writeReg s v r).lx = s.lx := by cases r <;> simp [writeReg]
@[simp] theorem writeReg_ly (s : State) (v : Word) (r : Reg) : (writeReg s v r).ly = s.ly := by cases r <;> simp [writeReg]
@[simp] theorem writeReg_lat (s : State) (v : Word) (r : Reg) : (writeReg s v r).lat = s.lat := by cases r <;> simp [writeReg]
@[simp] theorem writeReg_o (s : State) (v : Word) (r : Reg) : (writeReg s v r).o = s.o := by cases r <;> simp [writeReg]
@[simp] theorem writeReg_n (s : State) (v : Word) (r : Reg) : (writeReg s v r).n = s.n := by cases r <;> simp [writeReg]
@[simp] theorem writeReg_hung (s : State) (v : Word) (r : Reg) : (writeReg s v r).hung = s.hung := by cases r <;> simp [writeReg]
@[simp] theorem writeReg_raced (s : State) (v : Word) (r : Reg) : (writeReg s v r).raced = s.raced := by cases r <;> simp [writeReg]
@[simp] theorem writeReg_mem (s : State) (v : Word) (r : Reg) : (writeReg s v r).mem = s.mem := by cases r <;> simp [writeReg]
@[simp] theorem writeReg_pending (s : State) (v : Word) (r : Reg) : (writeReg s v r).pending = s.pending := by cases r <;> simp [writeReg]
@[simp] theorem writeReg_reply (s : State) (v : Word) (r : Reg) : (writeReg s v r).reply = s.reply := by cases r <;> simp [writeReg]
@[simp] theorem writeReg_draws (s : State) (v : Word) (r : Reg) : (writeReg s v r).draws = s.draws := by cases r <;> simp [writeReg]
@[simp] theorem writeReg_platform (s : State) (v : Word) (r : Reg) : (writeReg s v r).platform = s.platform := by cases r <;> simp [writeReg]
@[simp] theorem writeReg_inputs (s : State) (v : Word) (r : Reg) : (writeReg s v r).inputs = s.inputs := by cases r <;> simp [writeReg]

/-! ### The host's accesses to data memory (R85) -/

/-- A host write changes at most memory, the pending writes and the race mark. -/
theorem hostWriteBytes_frame (a : Word) (data : List Byte) (s : State) :
    ∃ m pe ra, hostWriteBytes a data s = { s with mem := m, pending := pe, raced := ra } := by
  induction data generalizing a s with
  | nil => exact ⟨s.mem, s.pending, s.raced, rfl⟩
  | cons v vs ih =>
    unfold hostWriteBytes
    obtain ⟨m, pe, ra, h⟩ := ih (a + 1) (hostWriteByte a v s)
    rw [h]
    unfold hostWriteByte
    split
    · exact ⟨m, pe, ra, rfl⟩
    · exact ⟨m, pe, ra, rfl⟩

/-- A host read changes at most the race mark and the count of free values. -/
theorem hostReadBytes_frame (a : Word) (k : Nat) (s : State) :
    ∃ ra d, (hostReadBytes a k s).2 = { s with raced := ra, draws := d } := by
  induction k generalizing a s with
  | zero => exact ⟨s.raced, s.draws, rfl⟩
  | succ k ih =>
    unfold hostReadBytes
    obtain ⟨ra, d, h⟩ := ih (a + 1) (hostReadByte a s)
    exact ⟨ra, d, by rw [h]; rfl⟩

/-- Outside a layer a host write races nothing and pends nothing. -/
theorem hostWriteBytes_no_layer (a : Word) (data : List Byte) {s : State} (h : s.fsm ≠ .nttBusy) :
    ∃ m, hostWriteBytes a data s = { s with mem := m } := by
  induction data generalizing a s with
  | nil => exact ⟨s.mem, rfl⟩
  | cons v vs ih =>
    have hb : hostWriteByte a v s = { s with mem := s.mem.write a.toNat v } := by simp [hostWriteByte, h]
    obtain ⟨m, hm⟩ := ih (a + 1) (s := { s with mem := s.mem.write a.toNat v }) h
    exact ⟨m, by rw [hostWriteBytes, hb, hm]⟩

theorem hostWriteBytes_wf (a : Word) (data : List Byte) {s : State} (hm : s.mem.wf = true) :
    (hostWriteBytes a data s).mem.wf = true := by
  induction data generalizing a s with
  | nil => exact hm
  | cons v vs ih =>
    refine ih (a + 1) ?_
    unfold hostWriteByte
    split
    · exact hm
    · exact Memory.wf_write hm a.isLt

/-- Outside a layer a host read races nothing. -/
theorem hostReadBytes_raced_no_layer (a : Word) (k : Nat) {s : State} (h : s.fsm ≠ .nttBusy) :
    (hostReadBytes a k s).2.raced = s.raced := by
  induction k generalizing a s with
  | zero => rfl
  | succ k ih =>
    unfold hostReadBytes
    rw [ih (a + 1) (s := hostReadByte a s) h]
    simp [hostReadByte, racingRead, h]

/-- A pending write that takes effect changes at most memory, the pending writes and the race mark. -/
theorem landWrite_frame (i : Nat) (s : State) :
    ∃ m pe ra, landWrite i s = { s with mem := m, pending := pe, raced := ra } := by
  unfold landWrite
  split
  · exact ⟨s.mem, s.pending, s.raced, rfl⟩
  · exact ⟨_, _, _, rfl⟩

theorem landWrite_wf (i : Nat) {s : State} (hm : s.mem.wf = true) : (landWrite i s).mem.wf = true := by
  unfold landWrite
  split
  · exact hm
  · exact Memory.wf_write hm (BitVec.isLt _)

theorem landWrite_raced_no_layer (i : Nat) {s : State} (h : s.fsm ≠ .nttBusy) :
    (landWrite i s).raced = s.raced := by
  unfold landWrite
  split
  · rfl
  · simp [h]

/-! ### Dispatch (R234 to R236) -/

/-- A CMD write is an overrun, a refusal or the event of a decoded command, in the order of R265. -/
theorem cmdWrite_cases {w : Word} {s t : State} (h : cmdWrite w s = .next t) :
    (busy s = true ∧ t = flagsOverrun s) ∨
      (s.fsm = .idle ∧ (∃ e, decode w = .error e) ∧ t = refuseCommand s) ∨
      (s.fsm = .idle ∧ ∃ i, decode w = .ok i ∧ exec i s = .next t) := by
  unfold cmdWrite at h
  split at h
  · rename_i hb
    cases h
    exact .inl ⟨hb, rfl⟩
  · rename_i hb
    have hi : s.fsm = .idle := by simpa [busy] using hb
    split at h
    · exact .inr (.inr ⟨hi, _, ‹_›, h⟩)
    · rename_i e he
      cases h
      exact .inr (.inl ⟨hi, ⟨e, he⟩, rfl⟩)

/-- CMD is the register at offset 0 and at no other (R22). -/
theorem regAt_cmd_iff (off : BitVec 8) : regAt off = some .cmd ↔ off = 0x00 := by
  revert off; decide

/-- A valid register write is a CMD write, at offset 0, or changes one register, or is ignored (R233). -/
theorem busWrite_cases {off : BitVec 8} {v : Word} {s t : State} (h : busWrite off v s = .next t) :
    (off = 0x00 ∧ cmdWrite v s = .next t) ∨ (∃ r, regAt off = some r ∧ r ≠ .cmd ∧ t = writeReg s v r) ∨
      (regAt off = none ∧ t = s) := by
  unfold busWrite at h
  split at h
  · rename_i hr
    exact .inl ⟨(regAt_cmd_iff off).mp hr, h⟩
  · rename_i r hc hr
    cases h
    refine .inr (.inl ⟨r, hr, ?_, rfl⟩)
    rintro rfl
    exact hc rfl
  · cases h
    exact .inr (.inr ⟨‹_›, rfl⟩)

/-- The engine's step: nothing while IDLE, else the event of the running command. -/
theorem engineStep_cases {s t : State} (h : engineStep s = .next t) :
    (s.fsm = .idle ∧ t = s) ∨ (s.fsm = .mulBusy ∧ t = mulStep s) ∨ (s.fsm = .nttBusy ∧ t = nttStep s) := by
  unfold engineStep at h
  split at h
  · rename_i hf
    cases h
    exact .inl ⟨hf, rfl⟩
  · rename_i hf
    rw [exec_mul_busy hf] at h
    cases h
    exact .inr (.inl ⟨hf, rfl⟩)
  · rename_i hf
    rw [exec_nttLayer_busy hf] at h
    cases h
    exact .inr (.inr ⟨hf, rfl⟩)

/-! ### One step -/

theorem step_cons {s : State} {e : Event} {rest : List Event} (h : s.inputs = e :: rest) :
    step s = handleEvent e (takeInput rest s) := by
  simp [step, h]

theorem step_nil {s : State} (h : s.inputs = []) : step s = backgroundStep s := by
  simp [step, h]

theorem takeInput_self (s : State) (h : s.inputs = []) : takeInput s.inputs.tail s = s := by
  cases s
  simp_all [takeInput]

/-- What a step can do, and on which event: with the event taken from the list, one engine step, one reset,
one pending write that takes effect, one access of the host to data memory, one register-bus transaction that
changes nothing but the reply, or one valid register write. -/
theorem step_cases {s t : State} (h : step s = .next t) :
    let s' := takeInput s.inputs.tail s
    (engineStep s' = .next t ∧ (s.inputs = [] ∧ busy s = true ∨ s.inputs.head? = some .engine)) ∨
      (t = resetEvent s' ∧ s.inputs.head? = some .reset) ∨
      (∃ i, t = landWrite i s' ∧ (s.inputs = [] ∧ busy s = false ∧ i = 0 ∨ s.inputs.head? = some (.land i))) ∨
      (∃ a data, t = setReply .memWritten (hostWriteBytes a data s') ∧ s.inputs.head? = some (.hostWrite a data)) ∨
      (∃ a k, t = setReply (.memData (hostReadBytes a k s').1) (hostReadBytes a k s').2 ∧
        s.inputs.head? = some (.hostRead a k)) ∨
      (∃ r b, t = setReply r s' ∧ s.inputs.head? = some (.bus b)) ∨
      (∃ off v, busWrite off v (setReply .written s') = .next t ∧ s.inputs.head? = some (.bus (.write off 8 v))) := by
  intro s'
  cases hi : s.inputs with
  | nil =>
    have hs : s' = s := takeInput_self s hi
    rw [hs]
    rw [step_nil hi, backgroundStep] at h
    split at h
    · exact .inl ⟨h, .inl ⟨rfl, ‹_›⟩⟩
    · cases h
      exact .inr (.inr (.inl ⟨0, rfl, .inl ⟨rfl, by simp_all, rfl⟩⟩))
  | cons e rest =>
    have hs : s' = takeInput rest s := by simp [s', hi]
    rw [hs]
    rw [step_cons hi] at h
    cases e with
    | bus b =>
      cases b with
      | write off bytes v =>
        simp only [handleEvent, busTransaction] at h
        split at h
        · rename_i hv
          have : bytes = 8 := by simp [busValid] at hv; exact hv.1
          subst this
          exact .inr (.inr (.inr (.inr (.inr (.inr ⟨off, v, h, rfl⟩)))))
        · cases h
          exact .inr (.inr (.inr (.inr (.inr (.inl ⟨_, _, rfl, rfl⟩)))))
      | read off bytes =>
        simp only [handleEvent, busTransaction] at h
        split at h <;> cases h <;> exact .inr (.inr (.inr (.inr (.inr (.inl ⟨_, _, rfl, rfl⟩)))))
    | engine => exact .inl ⟨h, .inr rfl⟩
    | reset => cases h; exact .inr (.inl ⟨rfl, rfl⟩)
    | hostWrite a data => cases h; exact .inr (.inr (.inr (.inl ⟨a, data, rfl, rfl⟩)))
    | hostRead a k => cases h; exact .inr (.inr (.inr (.inr (.inl ⟨a, k, rfl, rfl⟩))))
    | land i => cases h; exact .inr (.inr (.inl ⟨i, rfl, .inr rfl⟩))

end Sys2Proof.Machine
end

