-- ==== Sys2Proof/Laws/Script.lean ====
section
/-! SUPPORT. What the pseudo-instructions of the host script end in, said once (R109). -/

namespace Sys2Proof.Machine.Script

/-- A read after an empty gap returns the register's value and changes nothing but the reply. -/
theorem readAfter_nil (r : Reg) (s : State) (h : regAt r.offset = some r) (hv : busValid r.offset 8 = true) :
    readAfter [] r s = some (readReg s r, setReply (.value (readReg s r)) s) := by
  simp [readAfter, afterGap, after, read, handleEvent, busTransaction, hv, readOffset, h, setReply]

/-- Every register is at its own offset, a multiple of 8 (R22). -/
theorem regAt_offset (r : Reg) : regAt r.offset = some r ∧ busValid r.offset 8 = true := by
  cases r with
  | x i => revert i; decide
  | y i => revert i; decide
  | res i => revert i; decide
  | _ => decide

/-- A POLL that has ended has read STATUS with DONE = 1. -/
theorem poll_done {gaps : List (List Event)} {s t : State} {v : Word} (h : poll gaps s = some (v, t)) :
    v.getLsbD 1 = true := by
  induction gaps generalizing s with
  | nil => simp [poll] at h
  | cons gap gaps ih =>
    unfold poll at h
    split at h
    · split at h
      · cases h; assumption
      · exact ih h
    · cases h

/-- A POLL with no gap before its first read ends at once exactly if DONE = 1. -/
theorem poll_first_read (s : State) :
    poll [[]] s = if s.done then some (statusWord s, setReply (.value (statusWord s)) s) else none := by
  have hd : (statusWord s).getLsbD 1 = s.done := by
    unfold statusWord
    rw [BitVec.getLsbD_cast]
    simp only [BitVec.getLsbD_append]
    simp
  simp only [poll, readAfter_nil .status s (regAt_offset .status).1 (regAt_offset .status).2, readReg, hd]

/-- A WAITIRQ that has ended has seen `irq` = 1. -/
theorem waitIrq_irq {es : List Event} {s t : State} (h : waitIrq es s = some t) : irq t = true := by
  induction es generalizing s with
  | nil =>
    unfold waitIrq at h
    split at h
    · cases h; assumption
    · cases h
  | cons e es ih =>
    unfold waitIrq at h
    split at h
    · cases h; assumption
    · obtain ⟨u, -, hu⟩ := Option.bind_eq_some_iff.mp h
      exact ih hu

/-- RDRES with nothing in between gives the number RES holds (R41). -/
theorem rdRes_nil (s : State) :
    ∃ t, rdRes [] [] [] [] s = some (resNumber s.res.l0 s.res.l1 s.res.l2 s.res.l3, t) := by
  refine ⟨setReply (.value s.res.l3) s, ?_⟩
  simp only [rdRes, readAfter_nil _ _ (regAt_offset _).1 (regAt_offset _).2, Option.bind_some]
  rfl

end Sys2Proof.Machine.Script
end

