-- ==== Sys2Proof/Tests/Slice0.lean ====
section
/-! SUPPORT. Tests against the worked values of `95_test_vectors.md`, and a witness for the hypotheses of each
statement. -/

namespace Sys2Proof.Tests

open Sys2Proof Sys2Proof.Machine Sys2Proof.Config Sys2Proof.Statements Sys2Proof.Safety

/-! ### Decoding: words written out bit by bit -/

/-- R100, R103: RSVD = 56 zero bits, OPC = 00000001 (MUL) and 00000010 (NTT_LAYER). -/
theorem test_decode_words :
    decode 0b0000000000000000000000000000000000000000000000000000000000000001 = .ok .mul ∧
    decode 0b0000000000000000000000000000000000000000000000000000000000000010 = .ok .nttLayer := by decide

/-- R105: OPC 00000011 and 00000000, and the lowest and the highest RSVD bit set beside OPC = 00000001. -/
theorem test_decode_illegal :
    decode 0b0000000000000000000000000000000000000000000000000000000000000011 = .error .illegalOpcode ∧
    decode 0b0000000000000000000000000000000000000000000000000000000000000000 = .error .illegalOpcode ∧
    decode 0b0000000000000000000000000000000000000000000000000000000100000001 = .error .reservedNotZero ∧
    decode 0b1000000000000000000000000000000000000000000000000000000000000001 = .error .reservedNotZero := by
  decide

/-- The opcode table's rows, through the host's interface to the decoder. -/
theorem test_decode_table_words :
    decodeTableWord 64 1 = some .mul ∧ decodeTableWord 64 2 = some .nttLayer ∧ decodeTableWord 64 3 = none ∧
      decodeTableWord 72 1 = none := by decide

/-! ### Well-formedness: a term each check refuses -/

/-- R105: a nonzero RSVD is refused by check 1, and by it alone. -/
theorem test_wellFormed_rsvd :
    WellFormed.rsvdZero { opc := 1, rsvd := 1 } = false ∧ WellFormed.opcInMap { opc := 1, rsvd := 1 } = true ∧
      WellFormed.cmdWord { opc := 1, rsvd := 1 } = false := by decide

/-- R103: an opcode outside the map is refused by check 2, and by it alone. -/
theorem test_wellFormed_opc :
    WellFormed.opcInMap { opc := 3, rsvd := 0 } = false ∧ WellFormed.rsvdZero { opc := 3, rsvd := 0 } = true ∧
      WellFormed.cmdWord { opc := 3, rsvd := 0 } = false := by decide

/-! ### Small states -/

/-- The reset state with these events to come. -/
def withEvents (es : List Event) : State := { State.reset with inputs := es }

/-- A MUL of x and y is accepted and waits for its engine step. -/
def mulRuns (x y : Elem) : State := { State.reset with fsm := .mulBusy, lx := x, ly := y }

/-- The parameters of one butterfly on 0x1000 and 0x1020 with the twiddle at 0x2000, outputs at 0x3000, 0x3020. -/
def params : NttParams :=
  { src := 0x1020, srcEnd := 0x1040, dstOff := 0x2000, dist := 32, twBase := 0x2000, twShift := 0, twMask := 0 }

/-- A layer over these parameters is accepted and its butterfly comes next. -/
def layerRuns (m : Memory) (P : Platform) : State :=
  { State.reset with fsm := .nttBusy, lat := params, n := 32, mem := m, platform := P }

/-- The same layer after its one butterfly: the completion step comes next. -/
def layerEnds : State := { layerRuns [] Platform.plain with o := 64, bflyCount := 1 }

/-- A platform on which the accesses of these ranges get an error response. -/
def refusing (r : List AccessRange) : Platform := { Platform.plain with refused := r }

/-- A platform on which the accesses of these ranges get no response. -/
def mute (r : List AccessRange) : Platform := { Platform.plain with silent := r }

/-- All the element accesses of one kind at address a. -/
def accessAt (a : Nat) (kind : AccessKind) : AccessRange := { first := a, last := a, bytes := 32, kind := kind }

/-- enc(2), enc(3) and enc(5) (`95_test_vectors.md` section 2). -/
def enc2 : Elem := 0x07fffffffffffbd0ffffffffffffffffffffffffffffffffffffffffffffffc1
def enc3 : Elem := 0x07fffffffffff9b0ffffffffffffffffffffffffffffffffffffffffffffffa1
def enc5 : Elem := 0x07fffffffffff570ffffffffffffffffffffffffffffffffffffffffffffff61

/-- The memory of vector B1: enc(3), enc(5) and the twiddle enc(2). -/
def memB1 : Memory :=
  Memory.setElem (Memory.setElem (Memory.setElem [] 0x1000 enc3) 0x1020 enc5) 0x2000 enc2

/-! ### Two tests for each command -/

/-- Vectors M6 (result ≥ p), M8 (x not reduced) and M1 of `95_test_vectors.md` section 3. -/
theorem test_mul_result :
    (mulStep (mulRuns (BitVec.ofNat 256 (p - 32)) (BitVec.ofNat 256 (p - 1)))).res.toElem =
        0x0800000000000022000000000000242000000000000000000000000000000000 ∧
    (mulStep (mulRuns (BitVec.ofNat 256 (2 ^ 256 - 1)) (BitVec.ofNat 256 (p - 1)))).res.toElem =
        0x0840000000000012100000000000012100000000000000000000000000000000 ∧
    (mulStep (mulRuns enc3 enc5)).res.toElem =
        0x07ffffffffffe030fffffffffffffffffffffffffffffffffffffffffffffe21 := by
  decide

/-- Vectors H6, H7 and H8: STATUS after acceptance, after an overrun, after the engine step. -/
theorem test_mul_status :
    statusWord (acceptMul State.reset) = 0x1 ∧ statusWord (flagsOverrun (acceptMul State.reset)) = 0x5 ∧
      statusWord (mulStep (flagsOverrun (acceptMul State.reset))) = 0x6 := by decide

/-- Vector B1 of section 4, through memory, with its addresses: out1, out2, BFLY_COUNT and `st.o`. -/
theorem test_nttLayer_butterfly :
    (nttStep (layerRuns memB1 Platform.plain)).mem.elem 0x3000 =
        0x0fffffffffffe481fffffffffffffffffffffffffffffffffffffffffffffe62 ∧
    (nttStep (layerRuns memB1 Platform.plain)).mem.elem 0x3020 =
        0x1000000000000f020000000000000000000000000000000000000000000000e2 ∧
    (nttStep (layerRuns memB1 Platform.plain)).bflyCount = 1 ∧
    (nttStep (layerRuns memB1 Platform.plain)).o = 64 := by
  decide +kernel

/-- As program P6: the platform refuses reads of the twiddle's bytes. STATUS = 0x202, FAULT_ADDR the element's
first byte address, BFLY_COUNT not incremented, nothing written. -/
theorem test_nttLayer_bus_error :
    statusWord (nttStep (layerRuns memB1 (refusing [accessAt 0x2000 .read]))) = 0x202 ∧
    (nttStep (layerRuns memB1 (refusing [accessAt 0x2000 .read]))).faultAddr = 0x2000 ∧
    (nttStep (layerRuns memB1 (refusing [accessAt 0x2000 .read]))).bflyCount = 0 ∧
    (nttStep (layerRuns memB1 (refusing [accessAt 0x2000 .read]))).mem = memB1 := by
  decide

/-- R267: `irq` = 1 asserts the line of IRQ_ROUTE with its priority; masked, it asserts none. -/
theorem test_irq_route :
    let P : Platform := { Platform.plain with irqRoute := { line := 5, priority := 3 } }
    hostIrqLines { State.reset with done := true, irqEn := true, platform := P } = [{ line := 5, priority := 3 }] ∧
      hostIrqLines { State.reset with done := true, platform := P } = [] := by decide

/-! ### The host script (R109) -/

/-- A POLL of a running MUL reads DONE = 0 first, and ends with STATUS = 0x2 after the engine's step; without that
step it does not end. -/
theorem test_poll :
    ((Script.poll [[], [.engine]] (mulRuns 0 0)).map Prod.fst) = some 0x2 ∧
      ((Script.poll [[.hostWrite 8 [1], .bus (.read 0xC0 8)], [.hostRead 8 1, .engine]] (mulRuns 0 0)).map Prod.fst) =
        some 0x2 ∧
      (Script.poll [[], []] (mulRuns 0 0)).isNone = true ∧ (Script.poll [] State.reset).isNone = true := by
  decide

/-- A WAITIRQ ends where a completed command raises `irq`, and does not end where IRQ_EN = 0. -/
theorem test_waitIrq :
    (Script.waitIrq [.engine] { mulRuns 0 0 with irqEn := true }).isSome = true ∧
      (Script.waitIrq [.engine] (mulRuns 0 0)).isNone = true := by decide

/-- Vector M1 of `95_test_vectors.md` section 3, read back with RDRES. -/
theorem test_rdRes :
    ((Script.rdRes [.engine] [] [] [] (mulRuns enc3 enc5)).map Prod.fst) =
      some 0x07ffffffffffe030fffffffffffffffffffffffffffffffffffffffffffffe21 := by decide

/-! ### Witnesses: states and operands that meet each statement's hypotheses together -/

theorem witness_DecodeOfEncode : WellFormed.instr .mul = true ∧ WellFormed.instr .nttLayer = true := by decide

theorem witness_StepRunsDecodedCommand :
    ((withEvents [cmdEvent 1]).inputs = cmdEvent 1 :: [] ∧ (withEvents [cmdEvent 1]).fsm = .idle ∧
      decode 1 = .ok .mul) ∧
    ((withEvents [cmdEvent 2]).inputs = cmdEvent 2 :: [] ∧ (withEvents [cmdEvent 2]).fsm = .idle ∧
      decode 2 = .ok .nttLayer) := by decide

theorem witness_StepRunsEngine :
    (∃ s : State, s.fsm = runs .mul ∧ s.inputs = .engine :: []) ∧
    (∃ s : State, s.fsm = runs .nttLayer ∧ s.inputs = []) ∧
    ∃ s : State, s.fsm = .idle ∧ s.inputs = .engine :: [] :=
  ⟨⟨{ mulRuns 0 0 with inputs := [.engine] }, rfl, rfl⟩, ⟨layerRuns [] Platform.plain, rfl, rfl⟩,
    ⟨withEvents [.engine], rfl, rfl⟩⟩

theorem witness_AcceptanceLatchesOperands :
    (∃ s : State, s.fsm = .idle ∧ s.inputs = cmdEvent 1 :: []) ∧
      ∃ s : State, s.fsm = .idle ∧ s.inputs = cmdEvent 2 :: [] :=
  ⟨⟨withEvents [cmdEvent 1], rfl, rfl⟩, ⟨withEvents [cmdEvent 2], rfl, rfl⟩⟩

theorem witness_IdleCommandStarts : State.reset.fsm = .idle := rfl

theorem witness_IllegalWordRefused :
    ((withEvents [cmdEvent 3]).inputs = cmdEvent 3 :: [] ∧ (withEvents [cmdEvent 3]).fsm = .idle ∧
      decode 3 = .error .illegalOpcode) ∧
    ((withEvents [cmdEvent 0x101]).inputs = cmdEvent 0x101 :: [] ∧ (withEvents [cmdEvent 0x101]).fsm = .idle ∧
      decode 0x101 = .error .reservedNotZero) := by decide

theorem witness_BusyCommandWriteOnlySetsOvr :
    ∃ s u : State, s.inputs = cmdEvent 3 :: [] ∧ s.fsm ≠ .idle ∧ engineStep s = .next u :=
  ⟨{ mulRuns 0 0 with inputs := [cmdEvent 3] }, _, rfl, by decide, rfl⟩

theorem witness_RegisterReads :
    ((0x00, 0) ∈ readTable (withEvents [readEvent 0x00]) ∧
      (withEvents [readEvent 0x00]).inputs = readEvent 0x00 :: []) ∧
    ((0xF8, 0) ∈ readTable (withEvents [readEvent 0xF8]) ∧
      (withEvents [readEvent 0xF8]).inputs = readEvent 0xF8 :: []) := by decide

theorem witness_RegisterWrites :
    ((0x08, { State.reset with reply := .written }) ∈
        writeTable { withEvents [writeEvent 0x08 6] with inputs := [], reply := .written } 6 ∧
      (withEvents [writeEvent 0x08 6]).inputs = writeEvent 0x08 6 :: []) ∧
    ((0xF8, { State.reset with reply := .written }) ∈
        writeTable { withEvents [writeEvent 0xF8 6] with inputs := [], reply := .written } 6 ∧
      (withEvents [writeEvent 0xF8 6]).inputs = writeEvent 0xF8 6 :: []) := by decide

theorem witness_InvalidTransactionChangesNothing :
    ((4 ≠ 8 ∨ (0x08 : BitVec 8).toNat % 8 ≠ 0) ∧
      (withEvents [.bus (.write 0x08 4 2)]).inputs = .bus (.write 0x08 4 2) :: []) ∧
    ((8 ≠ 8 ∨ (0x09 : BitVec 8).toNat % 8 ≠ 0) ∧
      (withEvents [.bus (.read 0x09 8)]).inputs = .bus (.read 0x09 8) :: []) := by decide

theorem witness_StatusWriteOneToClear :
    ((withEvents [writeEvent 0x08 2]).inputs = writeEvent 0x08 2 :: [] ∧ (2 : Word).getLsbD 1 = true) ∧
    ∃ s : State, s.inputs = writeEvent 0x08 0 :: [] ∧ s.fsm ≠ .idle ∧ s.done = false ∧
      (0 : Word).getLsbD 2 = false :=
  ⟨by decide, ⟨{ mulRuns 0 0 with inputs := [writeEvent 0x08 0] }, rfl, by decide, rfl, by decide⟩⟩

theorem witness_OperandWriteWhileBusy :
    (∃ t, 0x68 ∈ operandOffsets ∧ regAt 0x68 = some .nttTwShift ∧ (layerRuns [] Platform.plain).fsm = runs .nttLayer ∧
      exec .nttLayer (layerRuns [] Platform.plain) = .next t) ∧
    ∃ t, 0xB8 ∈ operandOffsets ∧ regAt 0xB8 = some (.y 3) ∧ (mulRuns 1 1).fsm = runs .mul ∧
      exec .mul (mulRuns 1 1) = .next t :=
  ⟨⟨_, by decide, rfl, rfl, rfl⟩, ⟨_, by decide, rfl, rfl, rfl⟩⟩

theorem witness_IrqRisesAndFalls :
    (∃ s t : State, step s = .next t ∧ s.fsm ≠ .idle ∧ t.fsm = .idle ∧ s.inputs = .engine :: []) ∧
    (∃ s t : State, step s = .next t ∧ s.inputs = writeEvent 0x10 1 :: []) ∧
    (∃ s t : State, step s = .next t ∧ s.inputs = writeEvent 0x10 0 :: []) ∧
    (∃ s t : State, step s = .next t ∧ s.inputs = writeEvent 0x08 2 :: []) ∧
    (∃ s t : State, step s = .next t ∧ s.inputs = .reset :: []) ∧
    (∃ s t : State, step s = .next t ∧ s.fsm = .idle ∧ s.inputs = cmdEvent 1 :: []) ∧
    (∃ s t : State, step s = .next t ∧ s.fsm = .idle ∧ s.inputs = cmdEvent 2 :: []) ∧
    (∃ s t : State, step s = .next t ∧ irq t = true) ∧ ∃ s t : State, step s = .next t ∧ irq t = false :=
  ⟨⟨{ mulRuns 0 0 with inputs := [.engine] }, _, rfl, by decide, rfl, rfl⟩,
    ⟨withEvents [writeEvent 0x10 1], _, rfl, rfl⟩, ⟨withEvents [writeEvent 0x10 0], _, rfl, rfl⟩,
    ⟨withEvents [writeEvent 0x08 2], _, rfl, rfl⟩, ⟨withEvents [.reset], _, rfl, rfl⟩,
    ⟨withEvents [cmdEvent 1], _, rfl, rfl, rfl⟩, ⟨withEvents [cmdEvent 2], _, rfl, rfl, rfl⟩,
    ⟨{ withEvents [writeEvent 0x10 1] with done := true }, _, rfl, rfl⟩, ⟨withEvents [.reset], _, rfl, rfl⟩⟩

theorem witness_ResetEventValues : (withEvents [.reset]).inputs = .reset :: [] := rfl

/-- A running layer that meets the invariant. -/
theorem layerRuns_inv : Inv (layerRuns [] Platform.plain) :=
  ⟨by decide, by decide, by unfold RunningStatus; decide, fun h => absurd rfl h, fun _ => by unfold LayerProgress; decide⟩

/-- The running layer, raced, with a reset as the next event. -/
def racedResets : State := { layerRuns [] Platform.plain with raced := true, inputs := [.reset] }

/-- The completion step of the layer comes next, the layer is raced, and a reset is the next event. -/
def racedEndResets : State := { layerEnds with raced := true, inputs := [.reset] }

/-- A raced layer meets the invariant too. -/
theorem racedResets_inv : Inv racedResets :=
  ⟨layerRuns_inv.memory, layerRuns_inv.errCode, layerRuns_inv.running, fun h => absurd rfl h, layerRuns_inv.layer⟩

/-- The last byte of out2 is one of the free bytes, and 0x3040 is the first byte after the write footprint. -/
theorem witness_ResetKeepsMemory :
    (∃ s : State, s.inputs = .reset :: [] ∧ s.fsm ≠ .nttBusy) ∧
    (∃ s : State, s.inputs = .reset :: [] ∧ s.fsm = .nttBusy ∧ s.raced = false ∧ s.n.toNat ≤ s.o) ∧
    (∃ s : State, s.inputs = .reset :: [] ∧ s.fsm = .nttBusy ∧ s.raced = false ∧ s.o < s.n.toNat ∧
      s.mem.wf = true ∧ inElem (out2Addr s.lat s.o) 0x303F = true ∧
      inElem (out1Addr s.lat s.o) 0x3040 = false ∧ inElem (out2Addr s.lat s.o) 0x3040 = false) ∧
    (racedResets.inputs = .reset :: [] ∧ racedResets.fsm = .nttBusy ∧ racedResets.raced = true ∧ Inv racedResets ∧
      racedResets.o < racedResets.n.toNat ∧ racedResets.mem.wf = true ∧
      inElem (out1Addr racedResets.lat racedResets.o) 0x3000 = true ∧
      inWriteFootprint racedResets.lat racedResets.n 0x3040 = false ∧
      inWriteFootprint racedResets.lat racedResets.n 0x303F = true) ∧
    (racedEndResets.inputs = .reset :: [] ∧ racedEndResets.fsm = .nttBusy ∧ racedEndResets.raced = true ∧
      ¬racedEndResets.o < racedEndResets.n.toNat) :=
  ⟨⟨withEvents [.reset], rfl, by decide⟩, ⟨{ layerEnds with inputs := [.reset] }, rfl, rfl, rfl, by decide⟩,
    ⟨{ layerRuns [] Platform.plain with inputs := [.reset] }, rfl, rfl, rfl, by decide, rfl, by decide, by decide,
      by decide⟩,
    ⟨rfl, rfl, rfl, racedResets_inv, by decide, rfl, by decide, by decide, by decide⟩, ⟨rfl, rfl, rfl, by decide⟩⟩

theorem witness_MontMulBounds :
    2 ^ 256 - 1 < 2 ^ 256 ∧ p - 1 < p ∧ (4 : Nat) ≤ 4 ∧ (3 : Nat) < 4 := by decide

theorem witness_MontMulClosedForm :
    (2 ^ 256 - 1 < 2 ^ 256 ∧ p - 1 < p) ∧ (p - 1 < 2 ^ 256 ∧ p - 32 < p ∧ p - 1 < p) ∧
      (0 < 2 ^ 256 ∧ (0 * 0 + 0 * p) % 2 ^ 256 = 0) := by decide

theorem witness_MontMulCongruence : 2 ^ 256 - 1 < 2 ^ 256 ∧ p - 1 < p := by decide

theorem witness_MontMulProperties : (3 < p ∧ p - 1 < p) ∧ 2 ^ 256 - 1 < 2 ^ 256 := by decide

theorem witness_MontMulEncodeDecode :
    5 < 2 ^ 256 ∧ (p < 2 ^ 256 ∧ p ≠ 0 ∧ p % p = 0) ∧ (p - 1 < 2 ^ 256 ∧ p - 1 < p) := by decide

theorem witness_MulCompletes :
    ((mulRuns 1 (BitVec.ofNat 256 (p - 1))).fsm = .mulBusy ∧ (mulRuns 1 (BitVec.ofNat 256 (p - 1))).ly.toNat < p) ∧
    ((mulRuns 1 (BitVec.ofNat 256 p)).fsm = .mulBusy ∧ ¬(mulRuns 1 (BitVec.ofNat 256 p)).ly.toNat < p) := by
  decide

theorem witness_MulResultNumber :
    ∃ t, (mulRuns 1 (BitVec.ofNat 256 (p - 1))).fsm = .mulBusy ∧
      (mulRuns 1 (BitVec.ofNat 256 (p - 1))).ly.toNat < p ∧ exec .mul (mulRuns 1 (BitVec.ofNat 256 (p - 1))) = .next t :=
  ⟨_, rfl, by decide, rfl⟩

theorem witness_MulTouchesNothingElse :
    (∃ t, exec .mul State.reset = .next t ∧ State.reset.fsm = .idle) ∧
    (∃ t, exec .mul (mulRuns 1 1) = .next t ∧ (mulRuns 1 1).fsm = .mulBusy) ∧
    ∃ t, exec .mul (layerRuns [] Platform.plain) = .next t ∧ (layerRuns [] Platform.plain).fsm = .nttBusy :=
  ⟨⟨_, rfl, rfl⟩, ⟨_, rfl, rfl⟩, ⟨_, rfl, rfl⟩⟩

theorem witness_ResOnlyFromMul :
    (∃ s t : State, step s = .next t ∧ t.res ≠ s.res ∧ s.fsm = .mulBusy) ∧
    ∃ s t : State, step s = .next t ∧ t.res ≠ s.res ∧ s.inputs.head? = some .reset :=
  ⟨⟨mulRuns enc3 enc5, _, rfl, by decide, rfl⟩,
    ⟨{ withEvents [.reset] with res := { l0 := 1, l1 := 0, l2 := 0, l3 := 0 } }, _, rfl, by decide, rfl⟩⟩

theorem witness_AdvanceRule :
    (0 + 32) &&& 32 ≠ 0 ∧ (32 + 32) &&& 32 = 0 ∧ 2 ^ 64 - 1 < 2 ^ 64 := by decide

theorem witness_WalkVisits :
    (params.dist.toNat = 32 * 2 ^ 0 ∧ 0 < 2 ^ 0) ∧
    (({ params with dist := 0x800 } : NttParams).dist.toNat = 32 * 2 ^ 6 ∧ 63 < 2 ^ 6) ∧
    ({ params with dist := 0 } : NttParams).dist = 0 := by decide

/-- Both ends of the interval of R195: NTT_END = 0x1061 and 0x10A0 with A = 0x1000, d = 32 and C = 2. -/
theorem witness_EndConventions :
    (32 * 2 ^ 0 = 32 * 2 ^ 0 ∧ (0x1020 : Word).toNat = 0x1000 + 32 * 2 ^ 0 ∧
      0x1000 + 2 * (32 * 2 ^ 0) * 2 < (0x1061 : Word).toNat + 32 ∧
      (0x1061 : Word).toNat ≤ 0x1000 + 2 * (32 * 2 ^ 0) * 2 + 32 * 2 ^ 0) ∧
    (0x1000 + 2 * (32 * 2 ^ 0) * 2 < (0x10A0 : Word).toNat + 32 ∧
      (0x10A0 : Word).toNat ≤ 0x1000 + 2 * (32 * 2 ^ 0) * 2 + 32 * 2 ^ 0) := by decide

theorem witness_TwiddleAddress :
    (2 ^ 64 - 1 < 2 ^ 64 ∧ 64 ≤ ({ params with twShift := 64 } : NttParams).twShift.toNat) ∧
    (1 ≤ 58 ∧ 1 < 2 ^ 1 ∧ ({ params with twMask := 63 } : NttParams).twShift = 0 ∧
      ({ params with twMask := 63 } : NttParams).twMask.toNat = 32 * 2 ^ 1 - 1) ∧
    (1 ≤ 58 ∧ 1 < 2 ^ 1 ∧ 2 ≤ 59 ∧ ({ params with twShift := 2, twMask := 0x60 } : NttParams).twShift.toNat = 1 + 1 ∧
      ({ params with twShift := 2, twMask := 0x60 } : NttParams).twMask.toNat = 32 * (2 ^ 2 - 1)) := by decide

theorem witness_InPlacePairsAreDisjoint :
    ({ params with dstOff := 0 } : NttParams).dstOff = 0 ∧ ({ params with dstOff := 0 } : NttParams).dist.toNat = 32 * 2 ^ 0 ∧
      0 ∈ offsets { params with dstOff := 0 } 96 ∧ 64 ∈ offsets { params with dstOff := 0 } 96 ∧ (0 : Nat) ≠ 64 := by
  decide

theorem witness_ElementIsLittleEndian : (3 : Nat) < 4 ∧ (7 : Nat) < 8 := by decide

theorem witness_CanonicalMemoryIsUnique :
    Memory.wf [(0, 1), (5, 2)] = true ∧
      ∀ a : Word, Memory.read [(0, 1), (5, 2)] a.toNat = Memory.read [(0, 1), (5, 2)] a.toNat :=
  ⟨by decide, fun _ => rfl⟩

theorem witness_AdmissionRule :
    (Platform.plain.silentElem .read 0x2000 = false ∧ Platform.plain.response .read 0x2000 = .completes) ∧
    ((refusing [accessAt 0x2000 .read]).silentElem .read 0x2000 = false ∧
      (refusing [accessAt 0x2000 .read]).response .read 0x2000 = .error) := by decide

theorem witness_HostMemoryAccess :
    (∃ s : State, s.fsm ≠ .nttBusy ∧ s.mem.wf = true ∧ [(1 : Byte), 2].length ≤ 2 ^ 64 ∧
      s.inputs = .hostWrite 0xFFFFFFFFFFFFFFFF [1, 2] :: []) ∧
    ∃ s : State, s.fsm ≠ .nttBusy ∧ s.mem.wf = true ∧ s.platform.notMemory = [] ∧ s.inputs = .hostRead 0 32 :: [] :=
  ⟨⟨withEvents [.hostWrite 0xFFFFFFFFFFFFFFFF [1, 2]], by decide, rfl, by decide, rfl⟩,
    ⟨withEvents [.hostRead 0 32], by decide, rfl, rfl, rfl⟩⟩

theorem witness_LazyButterflyBounds :
    (4 * p - 1 < 4 * p ∧ 2 ^ 256 - 1 < 2 ^ 256 ∧ p - 1 < p) ∧
      (3 * 2 ^ 256 % p % p = enc 3 ∧ 5 * 2 ^ 256 % p % p = enc 5 ∧ enc 2 < p) := by decide

theorem witness_DatapathMatchesIntegers :
    (BitVec.ofNat 256 (4 * p - 1)).toNat < 4 * p ∧ (BitVec.ofNat 256 (p - 1)).toNat < p := by decide

theorem witness_ButterflyCompletes :
    (bflyNext (layerRuns memB1 Platform.plain)) ∧
      allComplete Platform.plain
        [(.read, 0x1000), (.read, 0x1020), (.read, 0x2000), (.write, 0x3000), (.write, 0x3020)] :=
  ⟨⟨rfl, rfl, by decide⟩, by unfold allComplete; decide⟩

theorem witness_LayerFinishes :
    (finishNext layerEnds ∧ layerEnds.raced = false) ∧
    finishNext { layerEnds with raced := true } ∧ layerEnds.mem.wf = true ∧
      inWriteFootprint layerEnds.lat layerEnds.n 0x303F = true :=
  ⟨⟨⟨rfl, rfl, by decide⟩, rfl⟩, ⟨rfl, rfl, by decide⟩, rfl, by decide⟩

theorem witness_BusErrorAborts :
    (∀ P, bflyNext (layerRuns [] P) ∧ (layerRuns [] P).raced = false) ∧
    (refusing [accessAt 0x1000 .read]).response .read 0x1000 = .error ∧
    ((refusing [accessAt 0x1020 .read]).response .read 0x1000 = .completes ∧
      (refusing [accessAt 0x1020 .read]).response .read 0x1020 = .error) ∧
    (allComplete (refusing [accessAt 0x2000 .read]) [(.read, 0x1000), (.read, 0x1020)] ∧
      (refusing [accessAt 0x2000 .read]).response .read 0x2000 = .error) ∧
    (allComplete (refusing [accessAt 0x3000 .write]) [(.read, 0x1000), (.read, 0x1020), (.read, 0x2000)] ∧
      (refusing [accessAt 0x3000 .write]).response .write 0x3000 = .error) ∧
    (allComplete (refusing [accessAt 0x3020 .write])
        [(.read, 0x1000), (.read, 0x1020), (.read, 0x2000), (.write, 0x3000)] ∧
      (refusing [accessAt 0x3020 .write]).response .write 0x3020 = .error) ∧
    (refusing [{ first := 7, last := 7, bytes := 1, kind := .write }]).admitsByte .write 7 = false :=
  ⟨fun _ => ⟨⟨rfl, rfl, show (0 : Nat) < 32 by decide⟩, rfl⟩, by unfold allComplete; decide⟩

theorem witness_SilentMemoryHangs :
    (∀ P, bflyNext (layerRuns [] P)) ∧
    (accesses (layerRuns [] (mute [accessAt 0x1000 .read])))[0]? = some (.read, 0x1000) ∧
    (mute [accessAt 0x1000 .read]).response .read 0x1000 = .never ∧
    (accesses (layerRuns [] (mute [accessAt 0x3020 .write])))[4]? = some (.write, 0x3020) ∧
    (allComplete (mute [accessAt 0x3020 .write])
        [(.read, 0x1000), (.read, 0x1020), (.read, 0x2000), (.write, 0x3000)] ∧
      (mute [accessAt 0x3020 .write]).response .write 0x3020 = .never) ∧
    ∃ s : State, s.fsm = .nttBusy ∧ s.hung = true :=
  ⟨fun _ => ⟨rfl, rfl, show (0 : Nat) < 32 by decide⟩, by decide, by decide, by decide,
    by unfold allComplete; decide, ⟨hang (layerRuns [] Platform.plain), rfl, rfl⟩⟩

theorem witness_EmptyLayer :
    (State.reset.fsm = .idle ∧ State.reset.ntt.srcEnd ≤ State.reset.ntt.src) ∧
    ∃ s : State, s.fsm = .idle ∧ s.ntt.srcEnd ≤ s.ntt.src ∧ s.ntt.srcEnd ≠ s.ntt.src :=
  ⟨by decide, ⟨{ State.reset with ntt := { params with srcEnd := 0x101F } }, rfl, by decide, by decide⟩⟩

theorem witness_NttLayerFrame :
    (∃ t, exec .nttLayer State.reset = .next t ∧ State.reset.fsm = .idle) ∧
    (∃ t, exec .nttLayer (mulRuns 1 1) = .next t ∧ (mulRuns 1 1).fsm = .mulBusy) ∧
    (∃ t, exec .nttLayer layerEnds = .next t ∧ layerEnds.fsm = .nttBusy ∧ layerEnds.n.toNat ≤ layerEnds.o ∧
      layerEnds.raced = false) ∧
    ∃ t, exec .nttLayer (layerRuns [] Platform.plain) = .next t ∧ (layerRuns [] Platform.plain).o < 32 ∧
      inElem (out1Addr params 0) 0x3040 = false ∧ inElem (out2Addr params 0) 0x3040 = false :=
  ⟨⟨_, rfl, rfl⟩, ⟨_, rfl, rfl⟩, ⟨_, rfl, rfl, by decide, rfl⟩, ⟨_, rfl, by decide, by decide, by decide⟩⟩

theorem witness_StepsIndependentOfData :
    ∃ t, exec .nttLayer (layerRuns [] Platform.plain) = .next t := ⟨_, rfl⟩

/-- The two bytes written, and the two read, lie on both sides of the end of the write footprint. -/
theorem witness_RacingHostAccess :
    (∃ s : State, s.fsm = .nttBusy ∧ [(1 : Byte), 2].length ≤ 2 ^ 64 ∧ s.mem.wf = true ∧
      s.inputs = .hostWrite 0x303F [1, 2] :: [] ∧
      addressed 0x303F [1, 2] = [(0x303F, 1), (0x3040, 2)] ∧ inFootprint s.lat s.n 0x303F = true ∧
      inFootprint s.lat s.n 0x3040 = false) ∧
    (∃ s : State, s.fsm = .nttBusy ∧ s.inputs = .hostRead 0x303F 2 :: [] ∧
      inWriteFootprint s.lat s.n 0x303F = true ∧ inWriteFootprint s.lat s.n 0x3040 = false) ∧
    (∃ s : State, s.mem.wf = true ∧ s.pending[1]? = some (0x303F, 2) ∧ s.inputs = .land 1 :: [] ∧
      s.fsm = .nttBusy ∧ inFootprint s.lat s.n 0x303F = true) ∧
    ∃ s : State, s.mem.wf = true ∧ s.pending[0]? = some (0x303F, 2) ∧ s.inputs = [] ∧ s.fsm = .idle :=
  ⟨⟨{ layerRuns [] Platform.plain with inputs := [.hostWrite 0x303F [1, 2]] }, rfl, by decide, rfl, rfl, by decide,
      by decide, by decide⟩,
    ⟨{ layerRuns [] Platform.plain with inputs := [.hostRead 0x303F 2] }, rfl, rfl, by decide, by decide⟩,
    ⟨{ layerRuns [] Platform.plain with pending := [(8, 1), (0x303F, 2)], inputs := [.land 1] }, rfl, rfl, rfl, rfl,
      by decide⟩,
    ⟨{ State.reset with pending := [(0x303F, 2)] }, rfl, rfl, rfl, rfl⟩⟩

/-- The layer goes on after a butterfly, and it ends, by completion and by abort. -/
theorem witness_RacedLayerEnd :
    (∃ t, (layerRuns [] Platform.plain).fsm = .nttBusy ∧ (layerRuns [] Platform.plain).raced = false ∧
      exec .nttLayer (layerRuns [] Platform.plain) = .next t ∧ t.fsm = .nttBusy) ∧
    (∃ t, layerEnds.fsm = .nttBusy ∧ layerEnds.raced = false ∧ exec .nttLayer layerEnds = .next t ∧ t.fsm = .idle ∧
      layerEnds.mem.wf = true ∧ inWriteFootprint layerEnds.lat layerEnds.n 0x3040 = false ∧
      inWriteFootprint layerEnds.lat layerEnds.n 0x303F = true) ∧
    ∃ t, exec .nttLayer (layerRuns [] (refusing [accessAt 0x2000 .read])) = .next t ∧ t.fsm = .idle :=
  ⟨⟨nttStep (layerRuns [] Platform.plain), rfl, rfl, rfl, by decide⟩,
    ⟨nttStep layerEnds, rfl, rfl, rfl, rfl, rfl, by decide, by decide⟩,
    ⟨nttStep (layerRuns [] (refusing [accessAt 0x2000 .read])), rfl, by decide⟩⟩

theorem witness_LayerTerminates :
    Inv (layerRuns [] Platform.plain) ∧ (layerRuns [] Platform.plain).fsm = .nttBusy ∧
      (layerRuns [] Platform.plain).hung = false ∧ (layerRuns [] Platform.plain).inputs = [] ∧
      (layerRuns [] Platform.plain).platform.silent = [] := ⟨layerRuns_inv, rfl, rfl, rfl, rfl⟩

theorem witness_LayerEqualsLoop :
    ∃ s : State, s.fsm = .idle ∧ s.inputs = [] ∧ openPlatform s.platform ∧ offsets s.ntt (loopLength s.ntt) = [0, 64] :=
  ⟨{ State.reset with ntt := { params with srcEnd := 0x1061 } }, rfl, rfl, ⟨rfl, rfl, rfl, rfl⟩, by decide⟩

theorem witness_PlatformIsFixed : ∃ t, step State.reset = .next t := ⟨_, rfl⟩

theorem witness_OvrIsSticky :
    (∃ s t : State, step s = .next t ∧ s.inputs = cmdEvent 3 :: [] ∧ s.fsm ≠ .idle ∧ s.ovr = false ∧ t.ovr = true) ∧
    (∃ s t : State, step s = .next t ∧ s.ovr = true ∧ t.ovr = false ∧ s.inputs = .reset :: []) ∧
    ∃ s t : State, step s = .next t ∧ s.ovr = true ∧ t.ovr = false ∧ s.inputs = writeEvent 0x08 4 :: [] ∧
      (4 : Word).getLsbD 2 = true :=
  ⟨⟨{ mulRuns 0 0 with inputs := [cmdEvent 3] }, _, rfl, rfl, by decide, rfl, rfl⟩,
    ⟨{ withEvents [.reset] with ovr := true }, _, rfl, rfl, rfl, rfl⟩,
    ⟨{ withEvents [writeEvent 0x08 4] with ovr := true }, _, rfl, rfl, by decide, rfl, by decide⟩⟩

theorem witness_OperandRegistersAreTheHosts :
    ∃ s t : State, step s = .next t ∧ (t.ntt, t.x, t.y, t.irqEn) ≠ (s.ntt, s.x, s.y, s.irqEn) :=
  ⟨withEvents [writeEvent 0x10 1], _, rfl, by decide⟩

theorem witness_FsmTransitions :
    (∃ s t : State, step s = .next t ∧ s.fsm = .idle ∧ t.fsm ≠ .idle) ∧
    (∃ s t : State, step s = .next t ∧ s.fsm ≠ .idle ∧ t.fsm ≠ s.fsm ∧ s.inputs = []) ∧
    ∃ s t : State, step s = .next t ∧ s.fsm ≠ .idle ∧ t.fsm ≠ s.fsm ∧ s.inputs = .reset :: [] :=
  ⟨⟨withEvents [cmdEvent 1], _, rfl, rfl, by decide⟩, ⟨mulRuns 0 0, _, rfl, by decide, by decide, rfl⟩,
    ⟨{ mulRuns 0 0 with inputs := [.reset] }, _, rfl, by decide, by decide, rfl⟩⟩

theorem witness_BflyCountCounts :
    (∃ s t : State, step s = .next t ∧ t.bflyCount ≠ s.bflyCount ∧ s.fsm = .idle) ∧
    ∃ s t : State, step s = .next t ∧ t.bflyCount ≠ s.bflyCount ∧ s.fsm = .nttBusy :=
  ⟨⟨{ withEvents [cmdEvent 2] with bflyCount := 5 }, _, rfl, by decide, rfl⟩,
    ⟨layerRuns memB1 Platform.plain, nttStep (layerRuns memB1 Platform.plain), rfl, by decide, rfl⟩⟩

theorem witness_FaultAddrRecords :
    (∃ s t : State, step s = .next t ∧ t.faultAddr ≠ s.faultAddr ∧ s.fsm = .idle) ∧
    ∃ s t : State, step s = .next t ∧ t.faultAddr ≠ s.faultAddr ∧ s.fsm = .nttBusy :=
  ⟨⟨{ withEvents [cmdEvent 1] with faultAddr := 5 }, _, rfl, by decide, rfl⟩,
    ⟨layerRuns [] (refusing [accessAt 0x1000 .read]), nttStep (layerRuns [] (refusing [accessAt 0x1000 .read])), rfl,
      by decide, rfl⟩⟩

theorem witness_WhoChangesMemory :
    (∃ s t : State, step s = .next t ∧ t.mem ≠ s.mem ∧ s.fsm = .nttBusy) ∧
    (∃ s t : State, step s = .next t ∧ t.mem ≠ s.mem ∧ s.inputs = .hostWrite 8 [1] :: []) ∧
    ∃ s t : State, step s = .next t ∧ t.mem ≠ s.mem ∧ s.pending ≠ [] ∧ s.inputs = [] :=
  ⟨⟨layerRuns memB1 Platform.plain, nttStep (layerRuns memB1 Platform.plain), rfl, by decide +kernel, rfl⟩,
    ⟨withEvents [.hostWrite 8 [1]], _, rfl, by decide, rfl⟩,
    ⟨{ State.reset with pending := [(8, 1)] }, _, rfl, by decide, by decide, rfl⟩⟩

theorem witness_StepKeepsInvariant :
    ∃ t, Inv (layerRuns [] Platform.plain) ∧ step (layerRuns [] Platform.plain) = .next t :=
  ⟨nttStep (layerRuns [] Platform.plain), layerRuns_inv, rfl⟩

end Sys2Proof.Tests
end

section
/-! The platform's parameters and the list of events under every operation of the machine (R7, R240): each operation
leaves both as they are, and the one that takes an event takes the first. -/

namespace Sys2Proof.Machine

/-! ### Engine steps -/

/-- A butterfly step leaves the platform and the events alone, whichever access it ends at. -/
@[simp] theorem bflyStep_platform_inputs (s : State) :
    (bflyStep s).platform = s.platform ∧ (bflyStep s).inputs = s.inputs := by
  rcases bflyStep_cases s with h | ⟨a, h⟩ | h | h | h | h | h <;> simp [h]

@[simp] theorem nttFinish_platform_inputs (s : State) :
    (nttFinish s).platform = s.platform ∧ (nttFinish s).inputs = s.inputs := by
  simp [nttFinish]

@[simp] theorem nttStep_platform_inputs (s : State) :
    (nttStep s).platform = s.platform ∧ (nttStep s).inputs = s.inputs := by
  unfold nttStep
  split
  · exact ⟨rfl, rfl⟩
  · split
    · exact bflyStep_platform_inputs s
    · exact nttFinish_platform_inputs s

theorem engineStep_platform_inputs {s t : State} (h : engineStep s = .next t) :
    t.platform = s.platform ∧ t.inputs = s.inputs := by
  rcases engineStep_cases h with ⟨-, rfl⟩ | ⟨-, rfl⟩ | ⟨-, rfl⟩
  · exact ⟨rfl, rfl⟩
  · exact ⟨mulStep_platform s, mulStep_inputs s⟩
  · exact nttStep_platform_inputs s

/-! ### Register writes -/

theorem exec_idle_platform_inputs {i : Instr} {s t : State} (hi : s.fsm = .idle) (h : exec i s = .next t) :
    t.platform = s.platform ∧ t.inputs = s.inputs := by
  cases i with
  | mul =>
    rw [exec_mul_idle hi] at h
    cases h
    exact ⟨acceptMul_platform s, acceptMul_inputs s⟩
  | nttLayer =>
    rw [exec_nttLayer_idle hi] at h
    cases h
    exact ⟨acceptNtt_platform s, acceptNtt_inputs s⟩

theorem cmdWrite_platform_inputs {w : Word} {s t : State} (h : cmdWrite w s = .next t) :
    t.platform = s.platform ∧ t.inputs = s.inputs := by
  rcases cmdWrite_cases h with ⟨-, rfl⟩ | ⟨-, -, rfl⟩ | ⟨hi, i, -, he⟩
  · exact ⟨flagsOverrun_platform s, flagsOverrun_inputs s⟩
  · exact ⟨refuseCommand_platform s, refuseCommand_inputs s⟩
  · exact exec_idle_platform_inputs hi he

theorem busWrite_platform_inputs {off : BitVec 8} {v : Word} {s t : State} (h : busWrite off v s = .next t) :
    t.platform = s.platform ∧ t.inputs = s.inputs := by
  rcases busWrite_cases h with ⟨-, hc⟩ | ⟨r, -, -, rfl⟩ | ⟨-, rfl⟩
  · exact cmdWrite_platform_inputs hc
  · exact ⟨writeReg_platform s v r, writeReg_inputs s v r⟩
  · exact ⟨rfl, rfl⟩

/-! ### Data memory -/

@[simp] theorem hostWriteBytes_platform_inputs (a : Word) (data : List Byte) (s : State) :
    (hostWriteBytes a data s).platform = s.platform ∧ (hostWriteBytes a data s).inputs = s.inputs := by
  obtain ⟨m, pe, ra, h⟩ := hostWriteBytes_frame a data s
  simp [h]

@[simp] theorem hostReadBytes_platform_inputs (a : Word) (k : Nat) (s : State) :
    (hostReadBytes a k s).2.platform = s.platform ∧ (hostReadBytes a k s).2.inputs = s.inputs := by
  obtain ⟨ra, d, h⟩ := hostReadBytes_frame a k s
  simp [h]

@[simp] theorem landWrite_platform_inputs (i : Nat) (s : State) :
    (landWrite i s).platform = s.platform ∧ (landWrite i s).inputs = s.inputs := by
  obtain ⟨m, pe, ra, h⟩ := landWrite_frame i s
  simp [h]

/-! ### One step -/

/-- Beyond taking the first event, a step leaves the platform and the events alone. -/
theorem step_platform_inputs {s t : State} (h : step s = .next t) :
    t.platform = s.platform ∧ t.inputs = s.inputs.tail := by
  rcases step_cases h with ⟨he, -⟩ | ⟨rfl, -⟩ | ⟨i, rfl, -⟩ | ⟨a, data, rfl, -⟩ | ⟨a, k, rfl, -⟩ | ⟨r, b, rfl, -⟩ |
    ⟨off, v, hw, -⟩
  · simpa using engineStep_platform_inputs he
  · simp
  · simp
  · simp
  · simp
  · simp
  · simpa using busWrite_platform_inputs hw

end Sys2Proof.Machine

/-- Settles O52: the case split over what a step can do, each operation keeping the platform and the events that are
left once the first is taken. -/
theorem platformIsFixed : Obligations.PlatformIsFixed := by
  unfold Obligations.PlatformIsFixed
  exact fun _ _ h => Sys2Proof.Machine.step_platform_inputs h
end

section
/-! What one step can do, said once with a constructor per effect (R240): the ends of a butterfly, an engine step of a
layer, and the effect of a whole step. The statements about every step are case splits over it. -/

namespace Sys2Proof.Machine

open Sys2Proof.Statements (accesses cmdEvent writeEvent)

/-! ### A butterfly and an engine step of a layer -/

/-- `u` is `s` but for data memory, which stays canonical, and the count of free values. -/
def SameButData (s u : State) : Prop :=
  ∃ m d, (s.mem.wf = true → m.wf = true) ∧ u = { s with mem := m, draws := d }

theorem SameButData.refl (s : State) : SameButData s s := ⟨s.mem, s.draws, id, rfl⟩

theorem SameButData.takeDraws {s u : State} (h : SameButData s u) (k : Nat) : SameButData s (takeDraws k u) := by
  obtain ⟨m, d, hm, rfl⟩ := h
  exact ⟨m, d + k, hm, rfl⟩

theorem SameButData.storeElem {s u : State} (h : SameButData s u) (a : Word) (v : Elem) :
    SameButData s (storeElem a v u) := by
  obtain ⟨m, d, hm, rfl⟩ := h
  exact ⟨m.setElem a v, d, fun hs => Memory.wf_setElem a v (hm hs), rfl⟩

theorem SameButData.failedAccess {s u : State} (h : SameButData s u) (kind : AccessKind) (a : Word) :
    SameButData s (failedAccess kind a u) := by
  obtain ⟨m, d, hm, rfl⟩ := h
  cases kind with
  | read => exact ⟨m, d, hm, rfl⟩
  | write => exact ⟨_, d + 1, fun hs => failedAccess_wf .write a (hm hs), rfl⟩

/-- What an engine step of a layer at `s` can do, beside what it does to data memory, which stays canonical, and the
count of free values: wait for a response (R241); complete a butterfly (R187); abort at one of the butterfly's five
accesses (R262); complete the layer (R192). -/
inductive LayerStep (s : State) : State → Prop
  | wait {m : Memory} {d : Nat} (hm : s.mem.wf = true → m.wf = true) :
      LayerStep s { s with mem := m, draws := d, hung := true }
  | butterfly {m : Memory} {d : Nat} (hm : s.mem.wf = true → m.wf = true) (ho : s.o < s.n.toNat) :
      LayerStep s { s with mem := m, draws := d, bflyCount := s.bflyCount + 1, o := advance s.o s.lat.dist.toNat }
  | abort {m : Memory} {d : Nat} {x : AccessKind × Word} (hm : s.mem.wf = true → m.wf = true) (hh : s.hung = false)
      (hx : x ∈ accesses s) :
      LayerStep s
        { s with mem := m, draws := d, raced := false, faultAddr := x.2, fsm := .idle, done := true, err := 2 }
  | finish {m : Memory} {d : Nat} (hm : s.mem.wf = true → m.wf = true) (hh : s.hung = false) :
      LayerStep s { s with mem := m, draws := d, raced := false, fsm := .idle, done := true, err := 0 }

/-- The end of a raced layer is an update of memory, the count of free values and the race mark. -/
theorem settleRace_eq (s : State) :
    settleRace s = { s with mem := (settleRace s).mem, draws := (settleRace s).draws, raced := false } := by
  cases hr : s.raced with
  | false => rw [settleRace_of_not_raced hr, ← hr]
  | true => simp [settleRace, hr]

/-- An access before the rest of a butterfly only adds an abort at that access, or a wait, to what can happen. -/
theorem LayerStep.elemAccess {s u go : State} {kind : AccessKind} {a : Word} (hh : s.hung = false)
    (hx : (kind, a) ∈ accesses s) (hu : SameButData s u) (hgo : LayerStep s go) :
    LayerStep s (elemAccess kind a u go) := by
  rcases elemAccess_cases kind a u go with h | h | h <;> rw [h]
  · exact hgo
  · obtain ⟨m, d, hm, h⟩ := hu.failedAccess kind a
    rw [h, raiseBusError, settleRace_eq]
    exact .abort (fun hs => settleRace_wf (hm hs)) hh hx
  · obtain ⟨m, d, hm, rfl⟩ := hu
    exact .wait hm

theorem bflyStep_layerStep {s : State} (hh : s.hung = false) (ho : s.o < s.n.toNat) : LayerStep s (bflyStep s) := by
  have hs := SameButData.refl s
  have hone : SameButData s (bflyOneWritten s) := (hs.storeElem _ _).takeDraws _
  have hdone : LayerStep s (bflyDone (bflyBothWritten s)) := by
    obtain ⟨m, d, hm, h⟩ := hone.storeElem (out2Addr s.lat s.o) (bflyResults s).2
    rw [bflyBothWritten, h]
    exact .butterfly hm ho
  exact .elemAccess hh (by simp [accesses]) hs <| .elemAccess hh (by simp [accesses]) hs <|
    .elemAccess hh (by simp [accesses]) hs <| .elemAccess hh (by simp [accesses]) (hs.takeDraws _) <|
    .elemAccess hh (by simp [accesses]) hone hdone

theorem nttStep_layerStep (s : State) : LayerStep s (nttStep s) := by
  unfold nttStep
  split
  · rename_i hh
    have hs : s = { s with hung := true } := by rw [← hh]
    rw [hs]
    exact .wait id
  · have hh : s.hung = false := by simpa using ‹¬s.hung = true›
    split
    · exact bflyStep_layerStep hh ‹_›
    · rw [nttFinish, finishCommand, settleRace_eq]
      exact .finish settleRace_wf hh

/-! ### The decoded word and the written register -/

/-- A word that decodes to a command is the word of that command (R104). -/
theorem eq_encode_of_decode {w : Word} {i : Instr} (h : decode w = .ok i) : w = encode i := by
  have hw : joinWord (splitWord w) = w := by
    rw [joinWord, splitWord, BitVec.extractLsb'_append_extractLsb'_eq_extractLsb' (by decide)]
    exact BitVec.extractLsb'_eq_self
  have hc : splitWord w = WellFormed.fields i := by
    unfold decode at h
    split at h
    · cases h
    · rename_i hr
      have hr : (splitWord w).rsvd = 0 := by simpa using hr
      cases hsw : splitWord w
      rw [hsw] at h hr
      split at h
      · cases h; simp_all [WellFormed.fields]
      · split at h
        · cases h; simp_all [WellFormed.fields]
        · cases h
  rw [← hw, hc, encode]

/-- A register answers at its own offset only (R22). -/
theorem offset_of_regAt {off : BitVec 8} {r : Reg} (h : regAt off = some r) : off = r.offset :=
  have hall : ∀ off, ∀ r ∈ regAt off, off = Reg.offset r := by decide
  hall off r h

/-! ### One step -/

/-- The state a step works on: the event is taken from the list. -/
abbrev eventTaken (s : State) : State := takeInput s.inputs.tail s

/-- The state a valid register write works on. -/
abbrev writeReplied (s : State) : State := setReply .written (eventTaken s)

/-- What a step from `s` does, and on which event: the engine step of the running command; a reset; a CMD write, by
R234 to R236; a write of another register; or an access that touches none of the block's registers, which changes data
memory only as a host write or as a held-back write that takes effect. -/
inductive StepEffect (s : State) : State → Prop
  | mul (he : s.inputs = [] ∨ s.inputs.head? = some .engine) (hf : s.fsm = .mulBusy) :
      StepEffect s (mulStep (eventTaken s))
  | layer {t : State} (he : s.inputs = [] ∨ s.inputs.head? = some .engine) (hf : s.fsm = .nttBusy)
      (ht : LayerStep (eventTaken s) t) : StepEffect s t
  | reset (he : s.inputs.head? = some .reset) : StepEffect s (resetEvent (eventTaken s))
  | overrun {w : Word} (he : s.inputs.head? = some (cmdEvent w)) (hf : s.fsm ≠ .idle) :
      StepEffect s (flagsOverrun (writeReplied s))
  | refuse (hf : s.fsm = .idle) : StepEffect s (refuseCommand (writeReplied s))
  | acceptMul (he : s.inputs.head? = some (cmdEvent (encode .mul))) (hf : s.fsm = .idle) :
      StepEffect s (acceptMul (writeReplied s))
  | acceptNtt (he : s.inputs.head? = some (cmdEvent (encode .nttLayer))) (hf : s.fsm = .idle) :
      StepEffect s (acceptNtt (writeReplied s))
  | register {r : Reg} {v : Word} (he : s.inputs.head? = some (writeEvent r.offset v)) :
      StepEffect s (writeReg (writeReplied s) v r)
  | access {m : Memory} {pe : List (Word × Byte)} {ra : Bool} {d : Nat} {re : Reply}
      (hwf : s.mem.wf = true → m.wf = true) (hra : s.fsm ≠ .nttBusy → ra = s.raced)
      (hm : m = s.mem ∨ (∃ a data, s.inputs.head? = some (.hostWrite a data)) ∨
        (s.pending ≠ [] ∧ (s.inputs = [] ∨ ∃ i, s.inputs.head? = some (.land i)))) :
      StepEffect s { eventTaken s with mem := m, pending := pe, raced := ra, draws := d, reply := re }

/-- A step that changes the reply alone. -/
theorem StepEffect.replyOnly (s : State) (re : Reply) : StepEffect s (setReply re (eventTaken s)) :=
  .access id (fun _ => rfl) (.inl rfl)

theorem StepEffect.of_engineStep {s t : State} (h : engineStep (eventTaken s) = .next t)
    (he : s.inputs = [] ∨ s.inputs.head? = some .engine) : StepEffect s t := by
  rcases engineStep_cases h with ⟨-, rfl⟩ | ⟨hf, rfl⟩ | ⟨hf, rfl⟩
  · exact .replyOnly s s.reply
  · exact .mul he hf
  · exact .layer he hf (nttStep_layerStep _)

theorem StepEffect.of_landWrite (s : State) (i : Nat) (he : s.inputs = [] ∨ s.inputs.head? = some (.land i)) :
    StepEffect s (landWrite i (eventTaken s)) := by
  obtain ⟨m, pe, ra, h⟩ := landWrite_frame i (eventTaken s)
  have hwf := landWrite_wf i (s := eventTaken s)
  have hra := landWrite_raced_no_layer i (s := eventTaken s)
  have hm : (landWrite i (eventTaken s)).mem = s.mem ∨ s.pending ≠ [] := by
    by_cases hp : s.pending = []
    · exact .inl (by simp [landWrite, hp])
    · exact .inr hp
  rw [h] at hwf hra hm ⊢
  exact .access hwf hra (hm.imp id fun hp => .inr ⟨hp, he.imp id fun hl => ⟨i, hl⟩⟩)

theorem StepEffect.of_hostWrite (s : State) (a : Word) (data : List Byte)
    (he : s.inputs.head? = some (.hostWrite a data)) :
    StepEffect s (setReply .memWritten (hostWriteBytes a data (eventTaken s))) := by
  obtain ⟨m, pe, ra, h⟩ := hostWriteBytes_frame a data (eventTaken s)
  have hwf := hostWriteBytes_wf a data (s := eventTaken s)
  have hra : s.fsm ≠ .nttBusy → (hostWriteBytes a data (eventTaken s)).raced = s.raced := fun hf => by
    obtain ⟨m', h'⟩ := hostWriteBytes_no_layer a data (s := eventTaken s) hf
    exact (congrArg State.raced h').trans rfl
  rw [h] at hwf hra ⊢
  exact .access hwf hra (.inr (.inl ⟨a, data, he⟩))

theorem StepEffect.of_hostRead (s : State) (a : Word) (k : Nat) (re : Reply) :
    StepEffect s (setReply re (hostReadBytes a k (eventTaken s)).2) := by
  obtain ⟨ra, d, h⟩ := hostReadBytes_frame a k (eventTaken s)
  have hra := hostReadBytes_raced_no_layer a k (s := eventTaken s)
  rw [h] at hra ⊢
  exact .access id hra (.inl rfl)

theorem StepEffect.of_busWrite {s t : State} {off : BitVec 8} {v : Word}
    (h : busWrite off v (writeReplied s) = .next t) (he : s.inputs.head? = some (writeEvent off v)) :
    StepEffect s t := by
  rcases busWrite_cases h with ⟨rfl, hc⟩ | ⟨r, hr, -, rfl⟩ | ⟨-, rfl⟩
  · rcases cmdWrite_cases hc with ⟨hb, rfl⟩ | ⟨hf, -, rfl⟩ | ⟨hf, i, hd, hx⟩
    · exact .overrun he (by simpa [busy] using hb)
    · exact .refuse hf
    · obtain rfl := eq_encode_of_decode hd
      cases i with
      | mul =>
        rw [exec_mul_idle hf] at hx
        cases hx
        exact .acceptMul he hf
      | nttLayer =>
        rw [exec_nttLayer_idle hf] at hx
        cases hx
        exact .acceptNtt he hf
  · obtain rfl := offset_of_regAt hr
    exact .register he
  · exact .replyOnly s .written

/-- Every step has one of these effects. -/
theorem step_effect {s t : State} (h : step s = .next t) : StepEffect s t := by
  rcases step_cases h with ⟨hx, he⟩ | ⟨rfl, he⟩ | ⟨i, rfl, he⟩ | ⟨a, data, rfl, he⟩ | ⟨a, k, rfl, -⟩ |
    ⟨r, b, rfl, -⟩ | ⟨off, v, hw, he⟩
  · exact .of_engineStep hx (he.imp And.left id)
  · exact .reset he
  · exact .of_landWrite s i (he.imp And.left id)
  · exact .of_hostWrite s a data he
  · exact .of_hostRead s a k _
  · exact .replyOnly s r
  · exact .of_busWrite hw he

end Sys2Proof.Machine
end

section
/-! The invariant of the machine: reset gives it and every step keeps it (R27, R46, R193, R234). -/

namespace Sys2Proof.Safety

open Sys2Proof.Machine

/-! ### Ways to meet the invariant -/

/-- What the invariant asks of a state in which the engine is IDLE. -/
theorem Inv.of_idle {s : State} (hf : s.fsm = .idle) (hm : s.mem.wf = true) (he : s.err = 0 ∨ s.err = 1 ∨ s.err = 2)
    (hn : NoLayer s) : Inv s where
  memory := hm
  errCode := he
  running h := absurd hf h
  noLayer _ := hn
  layer h := by simp [hf] at h

theorem Inv.of_reset : Inv State.reset := .of_idle rfl rfl (.inl rfl) ⟨rfl, rfl⟩

/-- The reply and the events to come are no part of the invariant. -/
theorem Inv.writeReplied {s : State} (h : Inv s) : Inv (writeReplied s) :=
  ⟨h.memory, h.errCode, h.running, h.noLayer, h.layer⟩

theorem Inv.eventTaken {s : State} (h : Inv s) : Inv (eventTaken s) :=
  ⟨h.memory, h.errCode, h.running, h.noLayer, h.layer⟩

theorem noLayer_of_idle {s : State} (h : Inv s) (hf : s.fsm = .idle) : NoLayer s :=
  h.noLayer (by simp [hf])

/-! ### Engine steps -/

theorem Inv.mulStep {s : State} (h : Inv s) (hf : s.fsm = .mulBusy) : Inv (mulStep s) :=
  .of_idle rfl h.memory (.inl rfl) (h.noLayer (by simp [hf]))

theorem add_32_le_advance (o d : Nat) : o + 32 ≤ advance o d := by
  unfold advance
  split <;> omega

theorem advance_le (o d : Nat) : advance o d ≤ o + 32 + d := by
  unfold advance
  split <;> omega

/-- A butterfly keeps the layer's record: the offset stays in the walk, and the count stays bounded by both the offset
and the length (R176, R187, R193). -/
theorem LayerProgress.bflyDone {s : State} (h : LayerProgress s) (ho : s.o < s.n.toNat) :
    LayerProgress (bflyDone s) := by
  obtain ⟨hn, -, hmem, hco, hcn⟩ := h
  have hle := add_32_le_advance s.o s.lat.dist.toNat
  have hge := advance_le s.o s.lat.dist.toNat
  have hnlt := s.n.isLt
  have hdlt := s.lat.dist.isLt
  have hcount : (s.bflyCount + 1).toNat = s.bflyCount.toNat + 1 := by
    rw [BitVec.toNat_add]
    exact Nat.mod_eq_of_lt (by simp; omega)
  refine ⟨hn, ?_, fun ho' => advance_mem_offsets (hmem ho) ho', ?_, ?_⟩
  · simp only [bflyDone_o]; omega
  · simp only [bflyDone_o, bflyDone_bflyCount]; omega
  · simp only [bflyDone_n, bflyDone_bflyCount]; omega

theorem Inv.layerStep {s t : State} (h : Inv s) (hf : s.fsm = .nttBusy) (ht : LayerStep s t) : Inv t := by
  cases ht with
  | wait hm => exact ⟨hm h.memory, h.errCode, h.running, fun hn => absurd hf hn, h.layer⟩
  | butterfly hm ho => exact ⟨hm h.memory, h.errCode, h.running, h.noLayer, fun hn => (h.layer hn).bflyDone ho⟩
  | abort hm hh _ => exact .of_idle rfl (hm h.memory) (.inr (.inr rfl)) ⟨rfl, hh⟩
  | finish hm hh => exact .of_idle rfl (hm h.memory) (.inl rfl) ⟨rfl, hh⟩

/-! ### Reset, dispatch and register writes -/

theorem Inv.resetEvent {s : State} (h : Inv s) : Inv (resetEvent s) :=
  .of_idle rfl (resetMemory_wf h.memory) (.inl rfl) ⟨rfl, rfl⟩

theorem Inv.flagsOverrun {s : State} (h : Inv s) : Inv (flagsOverrun s) :=
  ⟨h.memory, h.errCode, h.running, h.noLayer, h.layer⟩

theorem Inv.refuseCommand {s : State} (h : Inv s) (hf : s.fsm = .idle) : Inv (refuseCommand s) :=
  .of_idle hf h.memory (.inr (.inl rfl)) (noLayer_of_idle (s := s) h hf)

theorem Inv.acceptMul {s : State} (h : Inv s) (hf : s.fsm = .idle) : Inv (acceptMul s) where
  memory := h.memory
  errCode := .inl rfl
  running _ := ⟨rfl, rfl, rfl⟩
  noLayer _ := noLayer_of_idle (s := s) h hf
  layer hn := by simp at hn

theorem Inv.acceptNtt {s : State} (h : Inv s) : Inv (acceptNtt s) where
  memory := h.memory
  errCode := .inl rfl
  running _ := ⟨rfl, rfl, rfl⟩
  noLayer hn := absurd rfl hn
  layer _ := ⟨rfl, by simp, fun ho => zero_mem_offsets s.ntt ho, by simp, by simp⟩

/-- A register write sets no DONE (R237). -/
theorem writeReg_done_of_not_done {s : State} (v : Word) (r : Reg) (h : s.done = false) :
    (writeReg s v r).done = false := by
  cases r <;> simp [writeReg, flagsStatusWrite, flagsCtrlWrite, h]

theorem Inv.writeReg {s : State} (h : Inv s) (v : Word) (r : Reg) : Inv (writeReg s v r) where
  memory := by simpa using h.memory
  errCode := by simpa using h.errCode
  running hf := by
    obtain ⟨hd, he, ha⟩ := h.running (by simpa using hf)
    exact ⟨writeReg_done_of_not_done v r hd, by simpa using he, by simpa using ha⟩
  noLayer hf := by simpa [NoLayer] using h.noLayer (by simpa using hf)
  layer hf := by simpa [LayerProgress] using h.layer (by simpa using hf)

/-! ### One step -/

theorem Inv.stepEffect {s t : State} (h : Inv s) (ht : StepEffect s t) : Inv t := by
  cases ht with
  | mul _ hf => exact h.eventTaken.mulStep hf
  | layer _ hf hl => exact h.eventTaken.layerStep hf hl
  | reset _ => exact h.eventTaken.resetEvent
  | overrun _ _ => exact h.writeReplied.flagsOverrun
  | refuse hf => exact h.writeReplied.refuseCommand hf
  | acceptMul _ hf => exact h.writeReplied.acceptMul hf
  | acceptNtt _ _ => exact h.writeReplied.acceptNtt
  | register _ => exact h.writeReplied.writeReg _ _
  | access hwf hra _ =>
    refine ⟨hwf h.memory, h.errCode, h.running, fun hf => ?_, h.layer⟩
    obtain ⟨hr, hh⟩ := h.noLayer hf
    exact ⟨(hra hf).trans hr, hh⟩

end Sys2Proof.Safety

/-- Settles O60: the case split over what a step does, each effect keeping the invariant. -/
theorem stepKeepsInvariant : Obligations.StepKeepsInvariant := by
  unfold Obligations.StepKeepsInvariant
  exact fun _ _ hs h => hs.stepEffect (Sys2Proof.Machine.step_effect h)

/-- Settles O59: the engine is IDLE after reset, and memory is blank. -/
theorem resetMeetsInvariant : Obligations.ResetMeetsInvariant := by
  unfold Obligations.ResetMeetsInvariant
  exact .of_reset
end

section
/-! Which step changes STATUS, the operand registers, BFLY_COUNT, FAULT_ADDR and data memory (R20, R26, R30, R31, R43),
read off the effects of a step. -/

namespace Sys2Proof.Machine

open Sys2Proof.Statements (accesses cmdEvent writeEvent operandOffsets runs)

/-! ### OVR (R26, R264) -/

/-- A full 64-bit write at a multiple of 8 is a valid register write (R231). -/
theorem step_write {s : State} {off : BitVec 8} {v : Word} {rest : List Event}
    (h : s.inputs = writeEvent off v :: rest) (hoff : off.toNat % 8 = 0) :
    step s = busWrite off v (writeReplied s) := by
  simp [step_cons h, writeEvent, handleEvent, busTransaction, busValid, hoff, writeReplied, eventTaken, h]

theorem step_cmd_busy {s : State} {w : Word} {rest : List Event} (h : s.inputs = cmdEvent w :: rest)
    (hf : s.fsm ≠ .idle) : step s = .next (flagsOverrun (writeReplied s)) := by
  rw [step_write h rfl]
  simp [busWrite, regAt, cmdWrite, busy, hf]

theorem step_status_write {s : State} {v : Word} {rest : List Event} (h : s.inputs = writeEvent 0x08 v :: rest) :
    step s = .next (flagsStatusWrite v (writeReplied s)) := by
  rw [step_write h rfl]
  rfl

/-- A register write leaves OVR, or is a write of STATUS, which clears it with bit 2 and never sets it (R237). -/
theorem writeReg_ovr (s : State) (v : Word) (r : Reg) :
    (writeReg s v r).ovr = s.ovr ∨ r = .status ∧ (writeReg s v r).ovr = (s.ovr && !v.getLsbD 2) := by
  cases r with
  | status => exact .inr ⟨rfl, rfl⟩
  | _ => exact .inl rfl

theorem StepEffect.ovr_falls {s t : State} (h : StepEffect s t) (hs : s.ovr = true) (ht : t.ovr = false) :
    s.inputs.head? = some .reset ∨ ∃ v : Word, v.getLsbD 2 = true ∧ s.inputs.head? = some (writeEvent 0x08 v) := by
  cases h with
  | reset he => exact .inl he
  | @register r v he =>
    rcases writeReg_ovr (writeReplied s) v r with hr | ⟨rfl, hr⟩
    · simp [hr, hs] at ht
    · exact .inr ⟨v, by simpa [hr, hs] using ht, he⟩
  | overrun _ _ => simp at ht
  | layer _ _ hl => cases hl <;> simp [hs] at ht
  | _ => simp [hs] at ht

theorem StepEffect.ovr_rises {s t : State} (h : StepEffect s t) (hs : s.ovr = false) (ht : t.ovr = true) :
    s.fsm ≠ .idle ∧ ∃ w, s.inputs.head? = some (cmdEvent w) := by
  cases h with
  | @overrun w he hf => exact ⟨hf, w, he⟩
  | @register r v _ => rcases writeReg_ovr (writeReplied s) v r with hr | ⟨-, hr⟩ <;> simp [hr, hs] at ht
  | reset _ => simp [State.reset] at ht
  | layer _ _ hl => cases hl <;> simp [hs] at ht
  | _ => simp [hs] at ht

/-! ### CTRL and the operand registers (R233) -/

/-- A register write that changes CTRL or an operand register is at the offset of one of them. -/
theorem operand_offset_of_writeReg_ne {s : State} {v : Word} {r : Reg}
    (h : ((writeReg s v r).ntt, (writeReg s v r).x, (writeReg s v r).y, (writeReg s v r).irqEn) ≠
      (s.ntt, s.x, s.y, s.irqEn)) : r.offset ∈ 0x10 :: operandOffsets := by
  cases r with
  | cmd | status | bflyCount | faultAddr | res i => exact absurd rfl h
  | x i | y i => clear h; revert i; decide
  | _ => decide

theorem StepEffect.operand_write {s t : State} (h : StepEffect s t)
    (hne : (t.ntt, t.x, t.y, t.irqEn) ≠ (s.ntt, s.x, s.y, s.irqEn)) :
    s.inputs.head? = some .reset ∨
      ∃ off v, off ∈ 0x10 :: operandOffsets ∧ s.inputs.head? = some (writeEvent off v) := by
  cases h with
  | reset he => exact .inl he
  | @register r v he => exact .inr ⟨r.offset, v, operand_offset_of_writeReg_ne (s := writeReplied s) hne, he⟩
  | layer _ _ hl => cases hl <;> exact absurd rfl hne
  | _ => exact absurd rfl hne

/-! ### The engine's state (R43, R243) -/

theorem decode_encode (i : Instr) : decode (encode i) = .ok i := by
  cases i <;> decide

theorem StepEffect.leaves_idle {s t : State} (h : StepEffect s t) (hs : s.fsm = .idle) (ht : t.fsm ≠ .idle) :
    ∃ i, s.inputs.head? = some (cmdEvent (encode i)) ∧ t.fsm = runs i := by
  cases h with
  | acceptMul he _ => exact ⟨.mul, he, rfl⟩
  | acceptNtt he _ => exact ⟨.nttLayer, he, rfl⟩
  | layer _ hf _ => simp [hs] at hf
  | reset _ => exact absurd rfl ht
  | _ => simp [hs] at ht

theorem StepEffect.leaves_busy {s t : State} (h : StepEffect s t) (hs : s.fsm ≠ .idle) (ht : t.fsm ≠ s.fsm) :
    t.fsm = .idle ∧
      (s.inputs.head? = some .reset ∨
        ((s.inputs = [] ∨ s.inputs.head? = some .engine) ∧ t.done = true ∧ (t.err = 0 ∨ t.err = 2))) := by
  cases h with
  | mul he _ => exact ⟨rfl, .inr ⟨he, rfl, .inl rfl⟩⟩
  | layer he _ hl =>
    cases hl with
    | abort => exact ⟨rfl, .inr ⟨he, rfl, .inr rfl⟩⟩
    | finish => exact ⟨rfl, .inr ⟨he, rfl, .inl rfl⟩⟩
    | _ => exact absurd rfl ht
  | reset he => exact ⟨rfl, .inl he⟩
  | acceptMul _ hf | acceptNtt _ hf => exact absurd hf hs
  | _ => simp at ht

/-! ### BFLY_COUNT and FAULT_ADDR (R30, R31) -/

theorem StepEffect.bflyCount_changes {s t : State} (h : StepEffect s t) (hne : t.bflyCount ≠ s.bflyCount) :
    (t.bflyCount = 0 ∧
      (s.inputs.head? = some .reset ∨ s.fsm = .idle ∧ s.inputs.head? = some (cmdEvent (encode .nttLayer)))) ∨
      (t.bflyCount = s.bflyCount + 1 ∧ s.fsm = .nttBusy ∧ t.fsm = .nttBusy ∧ t.o = advance s.o s.lat.dist.toNat) := by
  cases h with
  | reset he => exact .inl ⟨rfl, .inl he⟩
  | acceptNtt he hf => exact .inl ⟨rfl, .inr ⟨hf, he⟩⟩
  | layer _ hf hl =>
    cases hl with
    | butterfly => exact .inr ⟨rfl, hf, hf, rfl⟩
    | _ => exact absurd rfl hne
  | _ => simp at hne

theorem StepEffect.faultAddr_changes {s t : State} (h : StepEffect s t) (hne : t.faultAddr ≠ s.faultAddr) :
    (t.faultAddr = 0 ∧
      (s.inputs.head? = some .reset ∨ s.fsm = .idle ∧ ∃ i, s.inputs.head? = some (cmdEvent (encode i)))) ∨
      (s.fsm = .nttBusy ∧ t.fsm = .idle ∧ t.err = 2 ∧ ∃ x ∈ accesses s, t.faultAddr = x.2) := by
  cases h with
  | reset he => exact .inl ⟨rfl, .inl he⟩
  | acceptMul he hf => exact .inl ⟨rfl, .inr ⟨hf, .mul, he⟩⟩
  | acceptNtt he hf => exact .inl ⟨rfl, .inr ⟨hf, .nttLayer, he⟩⟩
  | layer _ hf hl =>
    cases hl with
    | @abort m d x _ _ hx => exact .inr ⟨hf, rfl, rfl, x, hx, rfl⟩
    | _ => exact absurd rfl hne
  | _ => simp at hne

/-! ### Data memory (R20, R144, R292) -/

theorem StepEffect.mem_changes {s t : State} (h : StepEffect s t) (hne : t.mem ≠ s.mem) :
    (s.fsm = .nttBusy ∧ (s.inputs = [] ∨ s.inputs.head? = some .engine ∨ s.inputs.head? = some .reset)) ∨
      (∃ a data, s.inputs.head? = some (.hostWrite a data)) ∨
      (s.pending ≠ [] ∧ (s.inputs = [] ∨ ∃ i, s.inputs.head? = some (.land i))) := by
  cases h with
  | layer he hf _ => exact .inl ⟨hf, he.imp id .inl⟩
  | reset he =>
    by_cases hf : s.fsm = .nttBusy
    · exact .inl ⟨hf, .inr (.inr he)⟩
    · simp [resetMemory_of_no_layer (s := eventTaken s) hf] at hne
  | access _ _ hm => exact .inr (hm.resolve_left hne)
  | _ => simp at hne

end Sys2Proof.Machine

/-- Settles O53: the two writes are computed; the rise and the fall are read off the effects of a step. -/
theorem ovrIsSticky : Obligations.OvrIsSticky := by
  unfold Obligations.OvrIsSticky
  open Sys2Proof.Machine in
  refine ⟨rfl, fun s t h => ⟨fun w rest hi hf => ?_, (step_effect h).ovr_falls, fun v rest hi hv => ?_,
    (step_effect h).ovr_rises⟩⟩
  · rw [step_cmd_busy hi hf] at h
    cases h
    rfl
  · rw [step_status_write hi] at h
    cases h
    simp [flagsStatusWrite, hv]

/-- Settles O54: only a reset and a register write touch them, and that write is at the register's own offset. -/
theorem operandRegistersAreTheHosts : Obligations.OperandRegistersAreTheHosts := by
  unfold Obligations.OperandRegistersAreTheHosts
  exact fun _ _ h hne => (Sys2Proof.Machine.step_effect h).operand_write hne

/-- Settles O55: of the effects of a step, only an acceptance leaves IDLE, and only an end or a reset leaves busy. -/
theorem fsmTransitions : Obligations.FsmTransitions := by
  unfold Obligations.FsmTransitions
  intro s t h
  have ht := Sys2Proof.Machine.step_effect h
  refine ⟨fun hs hne => ?_, ht.leaves_busy⟩
  obtain ⟨i, he, hf⟩ := ht.leaves_idle hs hne
  exact ⟨Sys2Proof.encode i, i, he, Sys2Proof.Machine.decode_encode i, hf⟩

/-- Settles O56: the word of NTT_LAYER is 2. -/
theorem bflyCountCounts : Obligations.BflyCountCounts := by
  unfold Obligations.BflyCountCounts
  exact fun _ _ h hne => (Sys2Proof.Machine.step_effect h).bflyCount_changes hne

/-- Settles O57: the words of the two commands are 1 and 2. -/
theorem faultAddrRecords : Obligations.FaultAddrRecords := by
  unfold Obligations.FaultAddrRecords
  intro s t h hne
  refine ((Sys2Proof.Machine.step_effect h).faultAddr_changes hne).imp_left ?_
  rintro ⟨h0, hr | ⟨hf, i, he⟩⟩
  · exact ⟨h0, .inl hr⟩
  · cases i with
    | mul => exact ⟨h0, .inr ⟨hf, .inl he⟩⟩
    | nttLayer => exact ⟨h0, .inr ⟨hf, .inr he⟩⟩

/-- Settles O58: of the effects of a step, only a layer's step, a reset and an access change memory. -/
theorem whoChangesMemory : Obligations.WhoChangesMemory := by
  unfold Obligations.WhoChangesMemory
  exact fun _ _ h hne => (Sys2Proof.Machine.step_effect h).mem_changes hne
end

section
/-! MontMul's number (R133, R137, R140) and the RES registers that hold it (R143). -/

namespace Sys2Proof.Machine

open Sys2Proof.Config (p)

/-! ### MontMul (R133) -/

theorem limbOf_eq (v i : Nat) : limbOf v i = v / (2 ^ 64) ^ i % 2 ^ 64 := by
  rw [limbOf, Nat.shiftRight_eq_div_pow, Nat.pow_mul]

/-- The factor of step 2 clears the low limb, because p is 1 modulo 2^64 (R135). -/
theorem dvd_montSum (y val xi : Nat) : 2 ^ 64 ∣ montSum y val xi := by
  unfold montSum montFactor p
  omega

/-- The shift of step 4 loses nothing. -/
theorem montRound_mul (y val xi : Nat) : montRound y val xi * 2 ^ 64 = montSum y val xi := by
  rw [montRound, Nat.shiftRight_eq_div_pow, Nat.div_mul_cancel (dvd_montSum y val xi)]

/-- The sum of a round that starts below 2p, before the shift (R138). -/
theorem montSum_lt {y val xi : Nat} (hy : y < p) (hv : val < 2 * p) (hx : xi < 2 ^ 64) :
    montSum y val xi < 2 ^ 65 * p := by
  have hu : montFactor (val + xi * y) < 2 ^ 64 := Nat.mod_lt _ (by decide)
  have h1 : xi * y ≤ (2 ^ 64 - 1) * (p - 1) := Nat.mul_le_mul (by omega) (by omega)
  have h2 : montFactor (val + xi * y) * p ≤ (2 ^ 64 - 1) * p := Nat.mul_le_mul_right p (by omega)
  unfold montSum
  generalize montFactor (val + xi * y) * p = u at h2 ⊢
  generalize xi * y = w at h1 ⊢
  unfold p at *
  omega

/-- A round keeps `val` below 2p (R137). -/
theorem montRound_lt {y val xi : Nat} (hy : y < p) (hv : val < 2 * p) (hx : xi < 2 ^ 64) :
    montRound y val xi < 2 * p := by
  have hs := montSum_lt hy hv hx
  have hm := montRound_mul y val xi
  omega

theorem montVal_lt {x y : Nat} (hy : y < p) (k : Nat) : montVal x y k < 2 * p := by
  induction k with
  | zero => rw [montVal]; decide
  | succ k ih => exact montRound_lt hy ih (Nat.mod_lt _ (by decide))

/-- After k rounds `val` is the product of x's k low limbs and y, divided by 2^(64k), modulo p (R140). -/
theorem montVal_modEq (x y k : Nat) : montVal x y k * (2 ^ 64) ^ k ≡ x % (2 ^ 64) ^ k * y [MOD p] := by
  induction k with
  | zero => rw [montVal, Nat.pow_zero, Nat.mod_one, Nat.zero_mul, Nat.zero_mul]
  | succ k ih =>
    have hsum : montVal x y (k + 1) * (2 ^ 64) ^ (k + 1) = montSum y (montVal x y k) (limbOf x k) * (2 ^ 64) ^ k := by
      rw [montVal, ← montRound_mul, Nat.pow_succ', Nat.mul_assoc]
    have hlimbs : x % (2 ^ 64) ^ (k + 1) * y = x % (2 ^ 64) ^ k * y + limbOf x k * y * (2 ^ 64) ^ k := by
      rw [Nat.mod_pow_succ, limbOf_eq]; ring
    rw [hsum, hlimbs, montSum, Nat.add_mul, Nat.add_mul]
    have hp (u : Nat) : u * p * (2 ^ 64) ^ k ≡ 0 [MOD p] :=
      Nat.modEq_zero_iff_dvd.mpr (Dvd.dvd.mul_right (Nat.dvd_mul_left p u) _)
    exact (ih.add_right _).add (hp _)

theorem montMul_lt (x : Nat) {y : Nat} (hy : y < p) : montMul x y < 2 * p := montVal_lt hy 4

theorem montMul_modEq {x : Nat} (y : Nat) (hx : x < 2 ^ 256) : montMul x y * 2 ^ 256 ≡ x * y [MOD p] := by
  have h := montVal_modEq x y 4
  rw [← Nat.pow_mul, Nat.mod_eq_of_lt hx] at h
  exact h

/-! ### RES (R41, R143) -/

/-- The four limbs of a value hold its number (R8). -/
theorem Limbs.ofElem_number (v : Elem) :
    (Limbs.ofElem v).l0.toNat + (Limbs.ofElem v).l1.toNat * 2 ^ 64 + (Limbs.ofElem v).l2.toNat * 2 ^ 128 +
      (Limbs.ofElem v).l3.toNat * 2 ^ 192 = v.toNat := by
  have hv := v.isLt
  simp only [Limbs.ofElem, BitVec.extractLsb'_toNat, Nat.shiftRight_eq_div_pow]
  omega

/-- With y < p MUL's result is MontMul without loss: it fits in 256 bits (R137). -/
theorem mulResult_toNat {y : Elem} (x : Elem) (k : Nat) (hy : y.toNat < p) :
    (mulResult x y k).toNat = montMul x.toNat y.toNat := by
  have hlt := montMul_lt x.toNat hy
  rw [mulResult, if_pos hy, BitVec.toNat_ofNat]
  exact Nat.mod_eq_of_lt (hlt.trans (by decide))

end Sys2Proof.Machine

/-- Settles O26: four rounds of MontMul stay below 2p, which RES holds without loss. -/
theorem mulResultNumber : Obligations.MulResultNumber := by
  unfold Obligations.MulResultNumber
  open Sys2Proof.Machine in
  intro s t hf hy h
  rw [exec_mul_busy hf] at h
  cases h
  refine ⟨?_, montMul_lt _ hy, montMul_modEq _ s.lx.isLt⟩
  rw [mulStep_res, Limbs.ofElem_number, mulResult_toNat _ _ hy]
end

section
/-! The host's own accesses to data memory while no layer runs (R49, R83, R108). -/

namespace Sys2Proof.Machine

/-- A host write changes no byte other than those it names. -/
theorem hostWriteBytes_read_outside (a : Word) (data : List Byte) (s : State) (b : Word)
    (h : ∀ i < data.length, b ≠ a + BitVec.ofNat 64 i) :
    (hostWriteBytes a data s).mem.read b.toNat = s.mem.read b.toNat := by
  induction data generalizing a s with
  | nil => rfl
  | cons v vs ih =>
    have hne : b.toNat ≠ a.toNat := fun hb => h 0 (by simp) (by simpa using BitVec.toNat_inj.mp hb)
    rw [hostWriteBytes, ih]
    · unfold hostWriteByte
      split
      · rfl
      · exact Memory.read_write_other v s.mem hne
    · intro i hi
      rw [addr_succ]
      exact h (i + 1) (by simpa using hi)

/-- A host write that meets no layer puts each byte at its address. -/
theorem hostWriteBytes_read_inside (a : Word) (data : List Byte) {s : State} (hf : s.fsm ≠ .nttBusy)
    (hm : s.mem.wf = true) (hlen : data.length ≤ 2 ^ 64) {i : Nat} (hi : i < data.length) :
    some ((hostWriteBytes a data s).mem.read (a + BitVec.ofNat 64 i).toNat) = data[i]? := by
  induction data generalizing a s i with
  | nil => simp at hi
  | cons v vs ih =>
    simp only [List.length_cons] at hlen hi
    have hb : hostWriteByte a v s = { s with mem := s.mem.write a.toNat v } := by simp [hostWriteByte, hf]
    rw [hostWriteBytes, hb]
    cases i with
    | zero =>
      rw [hostWriteBytes_read_outside]
      · simp [Memory.read_write_same hm]
      · intro j hj hj'
        rw [addr_succ] at hj'
        have h1 := congrArg BitVec.toNat hj'
        simp only [BitVec.toNat_add, BitVec.toNat_ofNat] at h1
        have := a.isLt
        omega
    | succ i =>
      rw [← addr_succ, List.getElem?_cons_succ]
      exact ih (a + 1) (s := { s with mem := s.mem.write a.toNat v }) hf (Memory.wf_write hm a.isLt)
        (by omega) (by omega)

/-- A host read of ordinary memory that meets no layer returns the bytes and changes nothing. -/
theorem hostReadBytes_ordinary (a : Word) (k : Nat) {s : State} (hf : s.fsm ≠ .nttBusy)
    (hn : s.platform.notMemory = []) :
    hostReadBytes a k s = ((List.range k).map fun i => s.mem.read (a + BitVec.ofNat 64 i).toNat, s) := by
  have hmem (b : Word) : notMemoryAt s.platform b = false := by simp [notMemoryAt, hn]
  have hrace (b : Word) : racingRead b s = false := by simp [racingRead, hf]
  induction k generalizing a with
  | zero => rfl
  | succ k ih =>
    have hs : hostReadByte a s = s := by
      simp only [hostReadByte, hrace, hmem, Bool.or_false, Bool.false_eq_true, if_false]
    have hb : hostByte a s = s.mem.read a.toNat := by simp [hostByte, hrace, hmem]
    rw [hostReadBytes, hs, hb, ih, List.range_succ_eq_map]
    simp only [List.map_cons, List.map_map, Function.comp_def, Nat.succ_eq_add_one, addr_succ, BitVec.add_zero]

end Sys2Proof.Machine

/-- Settles O37: a write by induction on its bytes, inside and outside; a read by induction on the count. -/
theorem hostMemoryAccess : Obligations.HostMemoryAccess := by
  unfold Obligations.HostMemoryAccess
  open Sys2Proof.Machine in
  intro s a rest hf hm
  refine ⟨fun data hlen hi => ?_, fun k hn hi => ?_⟩
  · have hin := fun i (hlt : i < data.length) =>
      hostWriteBytes_read_inside a data (s := takeInput rest s) hf hm hlen hlt
    have hout := hostWriteBytes_read_outside a data (takeInput rest s)
    obtain ⟨m, h⟩ := hostWriteBytes_no_layer a data (s := takeInput rest s) hf
    rw [h] at hin hout
    refine ⟨m, ?_, hin, hout⟩
    rw [step_cons hi, handleEvent, h]
    rfl
  · rw [step_cons hi, handleEvent, hostReadBytes_ordinary a k (s := takeInput rest s) hf hn]
    rfl
end

section
/-! The STATUS word (R28). -/

namespace Sys2Proof.Machine

/-- STATUS bit by bit: BUSY, DONE, OVR, five zero bits, ERR, zero bits. -/
theorem statusWord_getLsbD (s : State) (i : Nat) :
    (statusWord s).getLsbD i =
      match i with
      | 0 => busy s
      | 1 => s.done
      | 2 => s.ovr
      | i + 3 => if i < 5 then false else s.err.getLsbD (i - 5) := by
  simp only [statusWord, BitVec.getLsbD_cast, BitVec.getLsbD_append, BitVec.getLsbD_ofBool]
  match i with
  | 0 | 1 | 2 => simp
  | i + 3 =>
    have herr : ¬i - 5 < 4 → s.err.getLsbD (i - 5) = false := fun h => BitVec.getLsbD_of_ge s.err _ (by omega)
    by_cases hi : i < 5 <;> by_cases hj : i - 5 < 4 <;> simp [hi, hj, herr]

theorem statusWord_extract_high (s : State) : (statusWord s).extractLsb' 12 52 = 0 := by
  apply BitVec.eq_of_getLsbD_eq
  intro i hi
  rw [BitVec.getLsbD_extractLsb', show 12 + i = i + 9 + 3 by omega, statusWord_getLsbD]
  simp

theorem statusWord_extract_err (s : State) : (statusWord s).extractLsb' 8 4 = s.err := by
  apply BitVec.eq_of_getLsbD_eq
  intro i hi
  rw [BitVec.getLsbD_extractLsb', show 8 + i = i + 5 + 3 by omega, statusWord_getLsbD]
  simp [hi]

theorem statusWord_extract_middle (s : State) : (statusWord s).extractLsb' 3 5 = 0 := by
  apply BitVec.eq_of_getLsbD_eq
  intro i hi
  rw [BitVec.getLsbD_extractLsb', Nat.add_comm 3 i, statusWord_getLsbD]
  simp [hi]

end Sys2Proof.Machine

/-- Settles O14: the six fields, read off STATUS bit by bit. -/
theorem statusLayout : Obligations.StatusLayout := by
  unfold Obligations.StatusLayout
  open Sys2Proof.Machine in
  refine fun s => ⟨statusWord_extract_high s, statusWord_extract_err s, statusWord_extract_middle s,
    statusWord_getLsbD s 2, statusWord_getLsbD s 1, (statusWord_getLsbD s 0).trans ?_⟩
  simp [busy, bne, beq_eq_decide]
end

section
/-! The element as a number, the canonical form of memory, and what the platform answers to an access
(R70, R71, R73, R75, R80). -/

namespace Sys2Proof.Machine

open Sys2Proof.Config (blankByte)

/-! ### The bytes of a number (R73) -/

theorem Memory.readBytes_succ (m : Memory) (a : Word) (k : Nat) :
    m.readBytes a (k + 1) = (m.read a.toNat).toNat + 256 * m.readBytes (a + 1) k := rfl

theorem Memory.readBytes_eq_sum (m : Memory) (a : Word) (k : Nat) :
    m.readBytes a k =
      ((List.range k).map fun i => (m.read (a + BitVec.ofNat 64 i).toNat).toNat * 2 ^ (8 * i)).sum := by
  induction k generalizing a with
  | zero => rfl
  | succ k ih =>
    have hshift (i : Nat) : (m.read (a + BitVec.ofNat 64 (i + 1)).toNat).toNat * 2 ^ (8 * (i + 1)) =
        256 * ((m.read (a + 1 + BitVec.ofNat 64 i).toNat).toNat * 2 ^ (8 * i)) := by
      rw [addr_succ, Nat.mul_add, Nat.pow_add]
      ring
    rw [Memory.readBytes_succ, ih, List.range_succ_eq_map, List.map_cons, List.sum_cons, List.map_map,
      ← List.sum_map_mul_left]
    simp only [Function.comp_def, Nat.succ_eq_add_one, hshift, BitVec.add_zero, Nat.mul_zero, Nat.pow_zero,
      Nat.mul_one]

/-- Byte i of the number is the byte at address i of the row. -/
theorem Memory.readBytes_byte (m : Memory) (a : Word) {i k : Nat} (hi : i < k) :
    m.readBytes a k / 256 ^ i % 256 = (m.read (a + BitVec.ofNat 64 i).toNat).toNat := by
  induction i generalizing a k with
  | zero =>
    obtain ⟨k, rfl⟩ : ∃ j, k = j + 1 := ⟨k - 1, by omega⟩
    have := (m.read a.toNat).isLt
    rw [Memory.readBytes_succ, Nat.pow_zero, Nat.div_one, BitVec.add_zero]
    omega
  | succ i ih =>
    obtain ⟨k, rfl⟩ : ∃ j, k = j + 1 := ⟨k - 1, by omega⟩
    have hlow := (m.read a.toNat).isLt
    have hdiv : m.readBytes a (k + 1) / 256 = m.readBytes (a + 1) k := by
      rw [Memory.readBytes_succ]
      omega
    rw [Nat.pow_succ', ← Nat.div_div_eq_div_mul, hdiv, ih (a + 1) (by omega), addr_succ]

/-- An element is the number of its 32 bytes, without loss. -/
theorem Memory.elem_toNat (m : Memory) (a : Word) : (m.elem a).toNat = m.readBytes a 32 :=
  Nat.mod_eq_of_lt (Memory.readBytes_lt m a 32)

theorem Memory.elem_byte (m : Memory) (a : Word) {i : Nat} (hi : i < 32) :
    (m.elem a).extractLsb' (8 * i) 8 = m.read (a + BitVec.ofNat 64 i).toNat := by
  apply BitVec.eq_of_toNat_eq
  rw [BitVec.extractLsb'_toNat, Memory.elem_toNat, Nat.shiftRight_eq_div_pow, Nat.pow_mul]
  exact Memory.readBytes_byte m a hi

/-- Byte k of limb i is byte 8i + k of the element (R8). -/
theorem extract_byte_of_limb (v : Elem) {k : Nat} (i : Nat) (hk : k < 8) :
    (v.extractLsb' (64 * i) 64).extractLsb' (8 * k) 8 = v.extractLsb' (8 * (8 * i + k)) 8 := by
  apply BitVec.eq_of_getLsbD_eq
  intro j hj
  have hin : 8 * k + j < 64 := by omega
  have hbit : 64 * i + (8 * k + j) = 8 * (8 * i + k) + j := by ring
  simp [hj, hin, hbit]

/-! ### Canonical memories (R70) -/

theorem Memory.wfFrom_cons {lo : Nat} {c : Host.Cell} {m : Memory} :
    Memory.wfFrom lo (c :: m) = true ↔
      lo ≤ c.1 ∧ c.1 < 2 ^ 64 ∧ c.2 ≠ blankByte ∧ m.wfFrom (c.1 + 1) = true := by
  simp [Memory.wfFrom, and_assoc]

theorem Memory.read_head (c : Host.Cell) (m : Memory) : Memory.read (c :: m) c.1 = c.2 := if_pos rfl

/-- The first listed address of a canonical memory is not below that of another with the same bytes: there the
other one would read blank. -/
theorem Memory.head_le {lo lo' : Nat} {c c' : Host.Cell} {m m' : Memory} (hm : Memory.wfFrom lo (c :: m) = true)
    (hm' : Memory.wfFrom lo' (c' :: m') = true)
    (h : ∀ a < 2 ^ 64, Memory.read (c :: m) a = Memory.read (c' :: m') a) : c'.1 ≤ c.1 := by
  obtain ⟨-, hlt, hne, -⟩ := Memory.wfFrom_cons.mp hm
  obtain ⟨-, hlt', hne', hrest'⟩ := Memory.wfFrom_cons.mp hm'
  by_contra hlow
  have hblank : Memory.read (c' :: m') c.1 = blankByte :=
    Memory.read_below (Memory.wfFrom_cons.mpr ⟨le_refl _, hlt', hne', hrest'⟩) (not_le.mp hlow)
  exact hne (by rw [← Memory.read_head c m, h c.1 hlt, hblank])

/-- A canonical memory that lists a byte does not read as the empty one. -/
theorem Memory.not_all_blank {lo : Nat} {c : Host.Cell} {m : Memory} (hm : Memory.wfFrom lo (c :: m) = true) :
    ∃ a < 2 ^ 64, Memory.read (c :: m) a ≠ blankByte := by
  obtain ⟨-, hlt, hne, -⟩ := Memory.wfFrom_cons.mp hm
  exact ⟨c.1, hlt, by rwa [Memory.read_head]⟩

/-- Canonical memories with the same bytes are equal, from any least address on. -/
theorem Memory.ext_of_read {lo lo' : Nat} {m m' : Memory} (hm : m.wfFrom lo = true) (hm' : m'.wfFrom lo' = true)
    (h : ∀ a < 2 ^ 64, m.read a = m'.read a) : m = m' := by
  induction m generalizing lo lo' m' with
  | nil =>
    cases m' with
    | nil => rfl
    | cons c' m' =>
      obtain ⟨a, ha, hne⟩ := Memory.not_all_blank hm'
      exact absurd (h a ha).symm hne
  | cons c m ih =>
    cases m' with
    | nil =>
      obtain ⟨a, ha, hne⟩ := Memory.not_all_blank hm
      exact absurd (h a ha) hne
    | cons c' m' =>
      have haddr : c.1 = c'.1 :=
        le_antisymm (Memory.head_le hm' hm fun a ha => (h a ha).symm) (Memory.head_le hm hm' h)
      obtain ⟨-, hlt, -, hrest⟩ := Memory.wfFrom_cons.mp hm
      obtain ⟨-, -, -, hrest'⟩ := Memory.wfFrom_cons.mp hm'
      have hbyte : c.2 = c'.2 := by
        rw [← Memory.read_head c m, h c.1 hlt, haddr, Memory.read_head]
      have htail : m = m' := by
        refine ih hrest hrest' fun a ha => ?_
        by_cases hle : a < c.1 + 1
        · rw [Memory.read_below hrest hle, Memory.read_below hrest' (haddr ▸ hle)]
        · have ha' := h a ha
          rwa [Memory.read, Memory.read, if_neg (by omega), if_neg (by omega)] at ha'
      rw [Prod.ext haddr hbyte, htail]

/-! ### What an access meets (R71, R75, R80) -/

theorem mem_elemBytes (a b : Word) : b ∈ elemBytes a ↔ inElem a b = true := by
  simp only [elemBytes, List.mem_map, List.mem_range, inElem_iff]
  exact exists_congr fun i => and_congr_right fun _ => eq_comm

theorem Platform.admitsByte_iff (P : Platform) (kind : AccessKind) (b : Word) :
    P.admitsByte kind b = true ↔
      P.memAdmit b 1 kind = true ∧ ¬(P.windowInDataMemory = true ∧ (b - P.base).toNat < 256) := by
  rw [Platform.admitsByte, Bool.and_eq_true, Bool.not_eq_true', ← Bool.not_eq_true, Platform.inWindow,
    Bool.and_eq_true, decide_eq_true_eq]

theorem Platform.admitsElem_iff (P : Platform) (kind : AccessKind) (a : Word) :
    P.admitsElem kind a = true ↔
      P.memAdmit a 32 kind = true ∧ ∀ b, inElem a b = true → P.admitsByte kind b = true := by
  simp only [Platform.admitsElem, Bool.and_eq_true, List.all_eq_true, mem_elemBytes]

/-- An access that gets a response completes if it is admitted, else it gets an error. -/
theorem Platform.response_of_not_silent {P : Platform} {kind : AccessKind} {a : Word}
    (h : P.silentElem kind a = false) :
    P.response kind a = if P.admitsElem kind a then .completes else .error := by
  simp [Platform.response, h]

end Sys2Proof.Machine

/-- Settles O34: an element is the sum of its bytes, and each byte is a digit of it in base 256. -/
theorem elementIsLittleEndian : Obligations.ElementIsLittleEndian := by
  unfold Obligations.ElementIsLittleEndian
  open Sys2Proof.Machine in
  refine fun m a => ⟨by rw [Memory.elem_toNat, Memory.readBytes_eq_sum], fun i hi k hk => ?_⟩
  rw [extract_byte_of_limb _ i hk, Memory.elem_byte m a (by omega)]

/-- Settles O35: by induction on the list, whose first address is the least that does not read blank. -/
theorem canonicalMemoryIsUnique : Obligations.CanonicalMemoryIsUnique := by
  unfold Obligations.CanonicalMemoryIsUnique
  intro m m' hm hm' h
  refine Sys2Proof.Machine.Memory.ext_of_read hm hm' fun a ha => ?_
  have hbyte := h (BitVec.ofNat 64 a)
  rwa [BitVec.toNat_ofNat, Nat.mod_eq_of_lt ha] at hbyte

/-- Settles O36: of an access that gets a response, admission decides which. -/
theorem admissionRule : Obligations.AdmissionRule := by
  unfold Obligations.AdmissionRule
  open Sys2Proof.Machine in
  intro P kind a h
  have hiff := P.admitsElem_iff kind a
  simp only [Platform.admitsByte_iff] at hiff
  rw [Platform.response_of_not_silent h, ← hiff]
  cases P.admitsElem kind a <;> simp
end

section
/-! The race of R85: the host's data-memory accesses while a layer runs, a held-back write that takes effect, and the
end of a raced layer. -/

namespace Sys2Proof.Machine

open Sys2Proof.Statements (addressed)

/-! ### A host write while a layer runs -/

theorem addressed_cons (a : Word) (v : Byte) (vs : List Byte) :
    addressed a (v :: vs) = (a, v) :: addressed (a + 1) vs := by
  rw [addressed, addressed, List.zipIdx_cons', List.map_cons, List.map_map]
  simp only [Function.comp_def, Prod.map_fst, Prod.map_snd, id_eq, addr_succ, BitVec.add_zero]

/-- The bytes of a host write that a running layer's footprint holds: those held back (R85). -/
def heldBack (s : State) (cs : List (Word × Byte)) : List (Word × Byte) :=
  cs.filter fun c => inFootprint s.lat s.n c.1

theorem hostWriteByte_held {a : Word} {s : State} (v : Byte) (hf : s.fsm = .nttBusy)
    (h : inFootprint s.lat s.n a = true) :
    hostWriteByte a v s = { s with pending := s.pending ++ [(a, v)], raced := true } :=
  if_pos ⟨hf, h⟩

theorem hostWriteByte_stored {a : Word} {s : State} (v : Byte) (h : inFootprint s.lat s.n a = false) :
    hostWriteByte a v s = { s with mem := s.mem.write a.toNat v } :=
  if_neg fun hand => by simp [h] at hand

/-- Beside memory, a host write while a layer runs holds the footprint's bytes back, in order, and marks the layer
if there are any. -/
theorem hostWriteBytes_layer (a : Word) (data : List Byte) {s : State} (hf : s.fsm = .nttBusy) :
    ∃ m, hostWriteBytes a data s = { s with
      mem := m
      pending := s.pending ++ heldBack s (addressed a data)
      raced := s.raced || !(heldBack s (addressed a data)).isEmpty } := by
  induction data generalizing a s with
  | nil => exact ⟨s.mem, by simp [hostWriteBytes, heldBack, addressed]⟩
  | cons v vs ih =>
    cases h : inFootprint s.lat s.n a with
    | true =>
      obtain ⟨m, hm⟩ := ih (a + 1) (s := { s with pending := s.pending ++ [(a, v)], raced := true }) hf
      refine ⟨m, ?_⟩
      rw [hostWriteBytes, hostWriteByte_held v hf h, hm]
      simp [heldBack, addressed_cons, h]
    | false =>
      obtain ⟨m, hm⟩ := ih (a + 1) (s := { s with mem := s.mem.write a.toNat v }) hf
      refine ⟨m, ?_⟩
      rw [hostWriteBytes, hostWriteByte_stored v h, hm]
      simp [heldBack, addressed_cons, h]

/-- A byte that a host write does not name, or that it holds back, stays as it is. -/
theorem hostWriteBytes_read_kept (a : Word) (data : List Byte) {s : State} (hf : s.fsm = .nttBusy) {b : Word}
    (h : ∀ c ∈ addressed a data, c.1 = b → inFootprint s.lat s.n b = true) :
    (hostWriteBytes a data s).mem.read b.toNat = s.mem.read b.toNat := by
  induction data generalizing a s with
  | nil => rfl
  | cons v vs ih =>
    rw [addressed_cons] at h
    obtain ⟨hhead, htail⟩ := List.forall_mem_cons.mp h
    rw [hostWriteBytes]
    cases hin : inFootprint s.lat s.n a with
    | true =>
      rw [hostWriteByte_held v hf hin]
      exact ih (a + 1) (s := { s with pending := s.pending ++ [(a, v)], raced := true }) hf htail
    | false =>
      have hne : b.toNat ≠ a.toNat := fun hb => by
        obtain rfl := BitVec.toNat_inj.mp hb
        simp [hin] at hhead
      rw [hostWriteByte_stored v hin, ih (a + 1) (s := { s with mem := s.mem.write a.toNat v }) hf htail]
      exact Memory.read_write_other v s.mem hne

/-- A byte of a host write that the footprint does not hold is stored at once: no later byte of the same write has
its address. -/
theorem hostWriteBytes_read_stored (a : Word) (data : List Byte) {s : State} (hm : s.mem.wf = true)
    (hlen : data.length ≤ 2 ^ 64) {c : Word × Byte} (hc : c ∈ addressed a data)
    (h : inFootprint s.lat s.n c.1 = false) : (hostWriteBytes a data s).mem.read c.1.toNat = c.2 := by
  induction data generalizing a s with
  | nil => simp [addressed] at hc
  | cons v vs ih =>
    rw [List.length_cons] at hlen
    rw [addressed_cons] at hc
    rw [hostWriteBytes]
    rcases List.mem_cons.mp hc with rfl | hc
    · rw [hostWriteBytes_read_outside, hostWriteByte_stored v h, Memory.read_write_same hm]
      intro i hi hb
      rw [addr_succ] at hb
      have hnat := congrArg BitVec.toNat hb
      simp only [BitVec.toNat_add, BitVec.toNat_ofNat] at hnat
      have := a.isLt
      omega
    · refine ih (a + 1) (hostWriteBytes_wf a [v] hm) (by omega) hc ?_
      unfold hostWriteByte
      split <;> exact h

/-! ### A host read while a layer runs -/

/-- Whether byte i of a host read from a races the running layer's writes (R85). -/
def readRaces (s : State) (a : Word) (i : Nat) : Bool := inWriteFootprint s.lat s.n (a + BitVec.ofNat 64 i)

/-- Whether byte i of a host read from a is a free value (R78, R85). -/
def readFree (s : State) (a : Word) (i : Nat) : Bool :=
  readRaces s a i || notMemoryAt s.platform (a + BitVec.ofNat 64 i)

/-- Byte i of a host read from a while a layer runs: the next free value, or the byte in memory. -/
def layerByte (s : State) (a : Word) (i : Nat) : Byte :=
  if readFree s a i then (Config.any256 (s.draws + (List.range i).countP (readFree s a))).setWidth 8
  else s.mem.read (a + BitVec.ofNat 64 i).toNat

theorem racingRead_layer {s : State} (a : Word) (hf : s.fsm = .nttBusy) : racingRead a s = readRaces s a 0 := by
  simp [racingRead, readRaces, hf]

theorem free_layer {s : State} (a : Word) (hf : s.fsm = .nttBusy) :
    (racingRead a s || notMemoryAt s.platform a) = readFree s a 0 := by
  simp [racingRead_layer a hf, readFree]

theorem readRaces_hostReadByte (s : State) (a : Word) :
    readRaces (hostReadByte a s) (a + 1) = fun i => readRaces s a (i + 1) := by
  funext i
  simp only [readRaces, addr_succ]
  rfl

theorem readFree_hostReadByte (s : State) (a : Word) :
    readFree (hostReadByte a s) (a + 1) = fun i => readFree s a (i + 1) := by
  funext i
  simp only [readFree, readRaces_hostReadByte, addr_succ]
  rfl

/-- How many of the first k + 1 of a row meet p: the first, and those of the rest. -/
theorem countP_range_succ (p : Nat → Bool) (k : Nat) :
    (List.range (k + 1)).countP p = (if p 0 then 1 else 0) + (List.range k).countP fun i => p (i + 1) := by
  rw [List.range_succ_eq_map, List.countP_cons, List.countP_map, Nat.add_comm]
  rfl

theorem hostReadByte_draws_layer {s : State} (a : Word) (hf : s.fsm = .nttBusy) :
    (hostReadByte a s).draws = s.draws + if readFree s a 0 then 1 else 0 := by
  simp only [hostReadByte, free_layer a hf]
  split <;> rfl

theorem layerByte_hostReadByte {s : State} (a : Word) (hf : s.fsm = .nttBusy) :
    layerByte (hostReadByte a s) (a + 1) = fun i => layerByte s a (i + 1) := by
  funext i
  simp only [layerByte, readFree_hostReadByte, hostReadByte_draws_layer a hf, countP_range_succ, addr_succ,
    Nat.add_assoc]
  rfl

theorem hostByte_layer {s : State} (a : Word) (hf : s.fsm = .nttBusy) : hostByte a s = layerByte s a 0 := by
  simp [hostByte, layerByte, free_layer a hf, anyByte]

/-- A host read while a layer runs: its bytes, the free values it takes, and the mark if a byte races. -/
theorem hostReadBytes_layer (a : Word) (k : Nat) {s : State} (hf : s.fsm = .nttBusy) :
    hostReadBytes a k s =
      ((List.range k).map (layerByte s a),
        { s with
          draws := s.draws + (List.range k).countP (readFree s a)
          raced := s.raced || (List.range k).any (readRaces s a) }) := by
  induction k generalizing a s with
  | zero => simp [hostReadBytes]
  | succ k ih =>
    have hrest := ih (a + 1) (s := hostReadByte a s) hf
    have hraced : (hostReadByte a s).raced = (s.raced || readRaces s a 0) := by
      simp [hostReadByte, racingRead_layer a hf]
    rw [hostReadBytes, hrest, hraced, readFree_hostReadByte, readRaces_hostReadByte,
      layerByte_hostReadByte a hf, hostByte_layer a hf, hostReadByte_draws_layer a hf,
      countP_range_succ, List.range_succ_eq_map, List.map_cons, List.map_map, List.any_cons, List.any_map,
      Nat.add_assoc, Bool.or_assoc]
    rfl

/-! ### A held-back write that takes effect -/

theorem landWrite_some {s : State} {i : Nat} {c : Word × Byte} (h : s.pending[i]? = some c) :
    landWrite i s = { s with
      mem := s.mem.write c.1.toNat c.2
      pending := s.pending.eraseIdx i
      raced := s.raced || (s.fsm == .nttBusy && inFootprint s.lat s.n c.1) } := by
  simp [landWrite, h]

/-- A held-back write takes effect by its event, or as what an idle machine does with no event placed. -/
theorem step_land {s : State} {i : Nat} {rest : List Event}
    (h : s.inputs = .land i :: rest ∨ (s.inputs = [] ∧ rest = [] ∧ i = 0 ∧ s.fsm = .idle)) :
    step s = .next (landWrite i (takeInput rest s)) := by
  rcases h with h | ⟨h, rfl, rfl, hf⟩
  · rw [step_cons h, handleEvent]
  · have hself : takeInput [] s = s := by simpa [h] using takeInput_self s h
    rw [step_nil h, backgroundStep, hself]
    simp [busy, hf]

end Sys2Proof.Machine

/-- Settles O47: a write and a read by induction on their bytes, each byte by whether the footprint holds it. -/
theorem racingHostAccess : Obligations.RacingHostAccess := by
  unfold Obligations.RacingHostAccess
  open Sys2Proof.Machine in
  refine ⟨fun s a rest hf => ⟨fun data hlen hm hi => ?_, fun k hi => ?_⟩, fun s i c rest hm hc hi => ?_⟩
  · have hstored := fun c (hc : c ∈ Sys2Proof.Statements.addressed a data) =>
      hostWriteBytes_read_stored a data (s := takeInput rest s) hm hlen hc
    have hkept := fun b => hostWriteBytes_read_kept a data (s := takeInput rest s) hf (b := b)
    obtain ⟨m, h⟩ := hostWriteBytes_layer a data (s := takeInput rest s) hf
    rw [h] at hstored hkept
    refine ⟨m, ?_, hstored, hkept⟩
    rw [step_cons hi, handleEvent, h]
    rfl
  · rw [step_cons hi, handleEvent, hostReadBytes_layer a k (s := takeInput rest s) hf]
    rfl
  · refine ⟨s.mem.write c.1.toNat c.2, ?_, Memory.read_write_same hm, fun b hb => ?_⟩
    · rw [step_land hi, landWrite_some (s := takeInput rest s) hc]
      rfl
    · exact Memory.read_write_other c.2 s.mem fun h => hb (BitVec.toNat_inj.mp h)
end

section
/-! A raced layer against the same layer not raced (R85). -/

namespace Sys2Proof.Machine

open Sys2Proof.Statements (freeByte)

/-! ### The three cases of an engine step (R175, R241) -/

theorem nttStep_hung {s : State} (hh : s.hung = true) : nttStep s = s := if_pos hh

theorem nttStep_butterfly {s : State} (hh : s.hung = false) (ho : s.o < s.n.toNat) : nttStep s = bflyStep s := by
  simp [nttStep, hh, ho]

theorem nttStep_finish {s : State} (hh : s.hung = false) (ho : ¬s.o < s.n.toNat) : nttStep s = nttFinish s := by
  simp [nttStep, hh, ho]

/-! ### An engine step of the layer when it is raced -/

/-- The running layer is raced: the values of its destinations are lost when it ends (R85). -/
def markRaced (s : State) : State := { s with raced := true }

/-- What becomes of the outcome `t` of a layer's engine step when the layer is raced: it goes on with the mark, or its
write footprint is lost at the end. -/
def racedOutcome (t : State) : State := if t.fsm = .nttBusy then markRaced t else settleRace (markRaced t)

theorem racedOutcome_busy {t : State} (h : t.fsm = .nttBusy) : racedOutcome t = markRaced t := if_pos h

theorem racedOutcome_idle {t : State} (h : t.fsm = .idle) : racedOutcome t = settleRace (markRaced t) :=
  if_neg (by simp [h])

@[simp] theorem markRaced_lat (s : State) : (markRaced s).lat = s.lat := rfl
@[simp] theorem markRaced_o (s : State) : (markRaced s).o = s.o := rfl

theorem storeElem_markRaced (a : Word) (v : Elem) (s : State) :
    storeElem a v (markRaced s) = markRaced (storeElem a v s) := by
  simp only [storeElem, markRaced]

theorem takeDraws_markRaced (k : Nat) (s : State) : takeDraws k (markRaced s) = markRaced (takeDraws k s) := rfl

theorem bflyDone_markRaced (s : State) : bflyDone (markRaced s) = markRaced (bflyDone s) := rfl

theorem bflyResults_markRaced (s : State) : bflyResults (markRaced s) = bflyResults s := rfl

theorem bflyTaken_markRaced (s : State) : bflyTaken (markRaced s) = bflyTaken s := rfl

/-- The three cases of an element access, and how the race mark commutes with each. -/
theorem elemAccess_markRaced (kind : AccessKind) (a : Word) {u go : State} (hf : u.fsm = .nttBusy)
    (hr : u.raced = false) :
    elemAccess kind a (markRaced u) (racedOutcome go) = racedOutcome (elemAccess kind a u go) := by
  have hplat : (markRaced u).platform = u.platform := rfl
  cases h : u.platform.response kind a with
  | completes => rw [elemAccess_completes _ h, elemAccess_completes _ (hplat ▸ h)]
  | error =>
    rw [elemAccess_error _ h, elemAccess_error _ (hplat ▸ h), racedOutcome_idle (raiseBusError_fsm _ _),
      raiseBusError, raiseBusError, settleRace_of_not_raced (s := failedAccess kind a u) (by simpa using hr)]
    cases kind <;> rfl
  | never =>
    rw [elemAccess_never _ h, elemAccess_never _ (hplat ▸ h), racedOutcome_busy (t := hang u) hf]
    rfl

theorem bflyOneWritten_markRaced (s : State) : bflyOneWritten (markRaced s) = markRaced (bflyOneWritten s) := by
  rw [bflyOneWritten, bflyTaken_markRaced, bflyResults_markRaced, markRaced_lat, markRaced_o, storeElem_markRaced,
    takeDraws_markRaced, bflyOneWritten]

theorem bflyBothWritten_markRaced (s : State) : bflyBothWritten (markRaced s) = markRaced (bflyBothWritten s) := by
  rw [bflyBothWritten, bflyOneWritten_markRaced, bflyResults_markRaced, markRaced_lat, markRaced_o,
    storeElem_markRaced, bflyBothWritten]

/-- A butterfly of a raced layer ends as that of the layer not raced, but for the mark and what it loses. -/
theorem bflyStep_markRaced {s : State} (hf : s.fsm = .nttBusy) (hr : s.raced = false) :
    bflyStep (markRaced s) = racedOutcome (bflyStep s) := by
  have hdone : bflyDone (bflyBothWritten (markRaced s)) = racedOutcome (bflyDone (bflyBothWritten s)) := by
    rw [racedOutcome_busy (by simpa using hf), bflyBothWritten_markRaced, bflyDone_markRaced]
  unfold bflyStep
  rw [hdone, bflyTaken_markRaced, bflyOneWritten_markRaced, markRaced_lat, markRaced_o, takeDraws_markRaced,
    ← elemAccess_markRaced .read _ hf hr, ← elemAccess_markRaced .read _ hf hr,
    ← elemAccess_markRaced .read _ hf hr,
    ← elemAccess_markRaced .write _ (u := takeDraws (bflyTaken s) s) (by simpa using hf) (by simpa using hr),
    ← elemAccess_markRaced .write _ (u := bflyOneWritten s) (by simpa using hf) (by simpa using hr)]

theorem nttStep_markRaced {s : State} (hf : s.fsm = .nttBusy) (hr : s.raced = false) :
    nttStep (markRaced s) = racedOutcome (nttStep s) := by
  cases hh : s.hung with
  | true => rw [nttStep_hung hh, nttStep_hung (s := markRaced s) hh, racedOutcome_busy hf]
  | false =>
    by_cases ho : s.o < s.n.toNat
    · rw [nttStep_butterfly hh ho, nttStep_butterfly (s := markRaced s) hh ho, bflyStep_markRaced hf hr]
    · rw [nttStep_finish hh ho, nttStep_finish (s := markRaced s) hh ho, racedOutcome_idle rfl, nttFinish, nttFinish,
        settleRace_of_not_raced hr]
      rfl

/-! ### What the layer not raced keeps -/

/-- An engine step keeps the layer's parameters, its length and the canonical form of memory, and leaves the engine
in the layer or IDLE. -/
theorem LayerStep.frame {s t : State} (h : LayerStep s t) (hf : s.fsm = .nttBusy) :
    t.lat = s.lat ∧ t.n = s.n ∧ (s.mem.wf = true → t.mem.wf = true) ∧ (t.fsm = .nttBusy ∨ t.fsm = .idle) := by
  cases h with
  | wait hm | butterfly hm => exact ⟨rfl, rfl, hm, .inl hf⟩
  | abort hm | finish hm => exact ⟨rfl, rfl, hm, .inr rfl⟩

theorem failedAccess_draws_le (kind : AccessKind) (a : Word) (s : State) : s.draws ≤ (failedAccess kind a s).draws := by
  cases kind with
  | read => exact le_refl _
  | write => exact Nat.le_succ _

theorem settleRace_draws_le (s : State) : s.draws ≤ (settleRace s).draws := by
  unfold settleRace
  split
  · simp only [scramble_draws]
    omega
  · exact le_refl _

theorem elemAccess_draws_le (kind : AccessKind) (a : Word) {d : Nat} {u go : State} (hu : d ≤ u.draws)
    (hgo : d ≤ go.draws) : d ≤ (elemAccess kind a u go).draws := by
  rcases elemAccess_cases kind a u go with h | h | h <;> rw [h]
  · exact hgo
  · rw [raiseBusError_draws]
    exact (hu.trans (failedAccess_draws_le kind a u)).trans (settleRace_draws_le _)
  · exact hu

theorem bflyStep_draws_le (s : State) : s.draws ≤ (bflyStep s).draws := by
  have hone : s.draws ≤ (bflyOneWritten s).draws := by simp [bflyOneWritten]
  have hdone : s.draws ≤ (bflyDone (bflyBothWritten s)).draws := by simpa [bflyBothWritten] using hone
  have htaken : s.draws ≤ (takeDraws (bflyTaken s) s).draws := Nat.le_add_right _ _
  exact elemAccess_draws_le _ _ le_rfl <| elemAccess_draws_le _ _ le_rfl <| elemAccess_draws_le _ _ le_rfl <|
    elemAccess_draws_le _ _ htaken <| elemAccess_draws_le _ _ hone hdone

/-- No engine step takes back a free value. -/
theorem nttStep_draws_le (s : State) : s.draws ≤ (nttStep s).draws := by
  unfold nttStep
  split
  · exact le_refl _
  · split
    · exact bflyStep_draws_le s
    · exact settleRace_draws_le s

/-! ### What a raced layer loses at its end -/

/-- At the end of a raced layer every byte of its write footprint is a free value drawn there. -/
theorem settleRace_read_inside {t : State} (hm : t.mem.wf = true) {b : Word}
    (hb : inWriteFootprint t.lat t.n b = true) :
    freeByte (settleRace (markRaced t)).mem t.draws (settleRace (markRaced t)).draws b := by
  simp only [inWriteFootprint, List.any_eq_true, Bool.or_eq_true] at hb
  obtain ⟨o, ho, hin⟩ := hb
  exact scramble_read_inside t.lat (offsets t.lat t.n) t.draws hm b ho hin

/-- With free values from an earlier number on, more bytes are free. -/
theorem freeByte_mono {m : Memory} {d d' e : Nat} {b : Word} (h : freeByte m e d' b) (hd : d ≤ e) :
    freeByte m d d' b := by
  obtain ⟨k, i, hk, hk', hi, hv⟩ := h
  exact ⟨k, i, hd.trans hk, hk', hi, hv⟩

end Sys2Proof.Machine

/-- Settles O48: the race mark commutes with an engine step up to the loss of the write footprint at the end. -/
theorem racedLayerEnd : Obligations.RacedLayerEnd := by
  unfold Obligations.RacedLayerEnd
  open Sys2Proof.Machine in
  intro s t hf hr h
  have ht : nttStep s = t := Host.Outcome.next.inj ((exec_nttLayer_busy hf).symm.trans h)
  have hraced : exec .nttLayer { s with raced := true } = .next (racedOutcome t) := by
    rw [← ht, ← nttStep_markRaced hf hr]
    exact exec_nttLayer_busy (s := markRaced s) hf
  have hdraws : s.draws ≤ t.draws := ht ▸ nttStep_draws_le s
  obtain ⟨hlat, hn, hwf, hend⟩ := LayerStep.frame (ht ▸ nttStep_layerStep s) hf
  rw [hraced, ← hlat, ← hn]
  rcases hend with hbusy | hidle
  · rw [racedOutcome_busy hbusy]
    exact ⟨t.mem, t.draws, true, rfl, fun _ _ => rfl, fun _ => ⟨rfl, rfl⟩, fun hi => by simp [hbusy] at hi⟩
  · rw [racedOutcome_idle hidle]
    refine ⟨_, _, false, congrArg Host.Outcome.next (settleRace_eq (markRaced t)),
      settleRace_read_outside (markRaced t), fun hb => by simp [hidle] at hb, fun _ => ⟨rfl, fun hm b hb => ?_⟩⟩
    exact freeByte_mono (settleRace_read_inside (hwf hm) hb) hdraws
end

section
/-! The decoder's answer for every word (R104, R105), and the all-ones mask of the two words (R104). -/

namespace Sys2Proof

/-! ### The two checks of R105 -/

theorem decode_of_not_rsvdZero {w : Word} (h : WellFormed.rsvdZero (splitWord w) = false) :
    decode w = .error .reservedNotZero := by
  have hr : (splitWord w).rsvd ≠ 0 := by simpa [WellFormed.rsvdZero] using h
  exact if_pos hr

theorem decode_of_not_opcInMap {w : Word} (hr : WellFormed.rsvdZero (splitWord w) = true)
    (ho : WellFormed.opcInMap (splitWord w) = false) : decode w = .error .illegalOpcode := by
  have hr : (splitWord w).rsvd = 0 := by simpa [WellFormed.rsvdZero] using hr
  obtain ⟨h1, h2⟩ : (splitWord w).opc ≠ 0x01 ∧ (splitWord w).opc ≠ 0x02 := by simpa [WellFormed.opcInMap] using ho
  rw [decode, if_neg (not_not.mpr hr), if_neg h1, if_neg h2]

/-! ### The words of the commands -/

theorem encode_mul : encode .mul = 0x0000000000000001 := rfl

theorem encode_nttLayer : encode .nttLayer = 0x0000000000000002 := rfl

theorem decode_eq_ok_iff {w : Word} {i : Instr} : decode w = .ok i ↔ w = encode i :=
  ⟨Machine.eq_encode_of_decode, fun h => h ▸ Machine.decode_encode i⟩

/-- The decoder is total: a word is invalid when it is the word of no command. -/
theorem exists_decode_eq_error_iff {w : Word} :
    (∃ e, decode w = .error e) ↔ w ≠ encode .mul ∧ w ≠ encode .nttLayer := by
  simp only [ne_eq, ← decode_eq_ok_iff]
  cases decode w with
  | error e => simp
  | ok i => cases i <;> simp

theorem and_cmdMask (w : Word) : w &&& 0xFFFFFFFFFFFFFFFF = w := BitVec.and_allOnes

end Sys2Proof

/-- Settles O2: a word decodes to a command exactly when it is that command's word, and the mask keeps every bit. -/
theorem decodeAcceptsTwoWords : Obligations.DecodeAcceptsTwoWords := by
  unfold Obligations.DecodeAcceptsTwoWords
  open Sys2Proof in
  intro w
  have hmul : decode w = .ok .mul ↔ w = 0x0000000000000001 := decode_eq_ok_iff
  have hntt : decode w = .ok .nttLayer ↔ w = 0x0000000000000002 := decode_eq_ok_iff
  rw [and_cmdMask]
  exact ⟨hmul, hntt, hmul, hntt, exists_decode_eq_error_iff⟩

/-- Settles O1: two words of commands, three that fail the check of the opcode, two that fail that of the reserved
field. -/
theorem commandWordsDecode : Obligations.CommandWordsDecode := by
  unfold Obligations.CommandWordsDecode
  open Sys2Proof in
  exact ⟨decode_eq_ok_iff.mpr encode_mul.symm, decode_eq_ok_iff.mpr encode_nttLayer.symm,
    decode_of_not_opcInMap rfl rfl, decode_of_not_opcInMap rfl rfl, decode_of_not_opcInMap rfl rfl,
    decode_of_not_rsvdZero rfl, decode_of_not_rsvdZero rfl⟩

/-- Settles O3: every command is well formed, so the round trip needs no hypothesis on it. -/
theorem decodeOfEncode : Obligations.DecodeOfEncode := by
  unfold Obligations.DecodeOfEncode
  exact ⟨Sys2Proof.encode_mul, Sys2Proof.encode_nttLayer, fun i _ => Sys2Proof.Machine.decode_encode i⟩
end

section
/-! MontMul's closed form (R133, R138, R139): the round factors make up the m of R139, and what follows of it for
products of residues, for encode and for decode (R135, R140, R146 to R148). -/

namespace Sys2Proof.Machine

open Sys2Proof.Config (p)
open Sys2Proof.Statements (enc)

/-! ### The round factors (R133, R139) -/

/-- The number that the factors of step 2 of the first k rounds make up: Σ u_i·2^(64i) (R139). -/
def montFactorSum (x y : Nat) : Nat → Nat
  | 0 => 0
  | k + 1 => montFactorSum x y k + montFactor (montVal x y k + limbOf x k * y) * (2 ^ 64) ^ k

theorem montFactor_lt (val : Nat) : montFactor val < 2 ^ 64 := Nat.mod_lt _ (by decide)

theorem montFactorSum_lt (x y k : Nat) : montFactorSum x y k < (2 ^ 64) ^ k := by
  induction k with
  | zero => exact Nat.zero_lt_one
  | succ k ih =>
    have hu : montFactor (montVal x y k + limbOf x k * y) + 1 ≤ 2 ^ 64 := montFactor_lt _
    calc montFactorSum x y k + montFactor (montVal x y k + limbOf x k * y) * (2 ^ 64) ^ k
        < (montFactor (montVal x y k + limbOf x k * y) + 1) * (2 ^ 64) ^ k := by
          rw [Nat.succ_mul, Nat.add_comm]; exact Nat.add_lt_add_left ih _
      _ ≤ (2 ^ 64) ^ (k + 1) := by rw [Nat.pow_succ' (n := k)]; exact Nat.mul_le_mul_right _ hu

/-- The shifts of the first k rounds lose nothing: `val` is an exact quotient by 2^(64k). -/
theorem montVal_mul (x y k : Nat) :
    montVal x y k * (2 ^ 64) ^ k = x % (2 ^ 64) ^ k * y + montFactorSum x y k * p := by
  induction k with
  | zero => rw [montVal, montFactorSum, Nat.pow_zero, Nat.mod_one, Nat.zero_mul, Nat.zero_mul, Nat.zero_mul]
  | succ k ih =>
    calc montVal x y (k + 1) * (2 ^ 64) ^ (k + 1)
        = montSum y (montVal x y k) (limbOf x k) * (2 ^ 64) ^ k := by
          rw [montVal, ← montRound_mul, Nat.pow_succ', Nat.mul_assoc]
      _ = montVal x y k * (2 ^ 64) ^ k + limbOf x k * y * (2 ^ 64) ^ k +
            montFactor (montVal x y k + limbOf x k * y) * p * (2 ^ 64) ^ k := by
          rw [montSum, Nat.add_mul, Nat.add_mul]
      _ = x % (2 ^ 64) ^ (k + 1) * y + montFactorSum x y (k + 1) * p := by
          rw [ih, Nat.mod_pow_succ, montFactorSum, ← limbOf_eq]; ring

/-- The m of R139. -/
def montM (x y : Nat) : Nat := montFactorSum x y 4

theorem montM_lt (x y : Nat) : montM x y < 2 ^ 256 := (montFactorSum_lt x y 4).trans_eq (Nat.pow_mul 2 64 4).symm

theorem montMul_mul {x : Nat} (y : Nat) (hx : x < 2 ^ 256) : montMul x y * 2 ^ 256 = x * y + montM x y * p := by
  have h := montVal_mul x y 4
  rw [← Nat.pow_mul, Nat.mod_eq_of_lt hx] at h
  exact h

/-! ### The m of R139 is unique -/

theorem coprime_p_pow : Nat.Coprime p (2 ^ 256) := by decide

theorem p_lt_pow : p < 2 ^ 256 := by decide

/-- One m below 2^256 at most makes z + m·p a multiple of 2^256, because p is odd. -/
theorem eq_of_dvd_add_mul_p {z m m' : Nat} (hm : m < 2 ^ 256) (hm' : m' < 2 ^ 256) (h : 2 ^ 256 ∣ z + m * p)
    (h' : 2 ^ 256 ∣ z + m' * p) : m = m' := by
  have hsum : z + m * p ≡ z + m' * p [MOD 2 ^ 256] :=
    (Nat.modEq_zero_iff_dvd.mpr h).trans (Nat.modEq_zero_iff_dvd.mpr h').symm
  have hmm : m ≡ m' [MOD 2 ^ 256] :=
    (Nat.ModEq.add_left_cancel' z hsum).cancel_right_of_coprime coprime_p_pow.symm
  exact hmm.eq_of_lt_of_lt hm hm'

theorem dvd_add_montM_mul {x : Nat} (y : Nat) (hx : x < 2 ^ 256) : 2 ^ 256 ∣ x * y + montM x y * p :=
  ⟨montMul x y, by rw [← montMul_mul y hx, Nat.mul_comm]⟩

/-- The negation modulo 2^256 of z times an inverse of p is such an m. -/
theorem dvd_add_neg_mul_p {pinv : Nat} (hp : p * pinv % 2 ^ 256 = 1) (z : Nat) :
    2 ^ 256 ∣ z + (2 ^ 256 - z * pinv % 2 ^ 256) % 2 ^ 256 * p := by
  have hneg : (2 ^ 256 - z * pinv % 2 ^ 256) % 2 ^ 256 + z * pinv ≡ 0 [MOD 2 ^ 256] := by
    unfold Nat.ModEq
    omega
  have hinv : z * (p * pinv) ≡ z * 1 [MOD 2 ^ 256] := Nat.ModEq.mul_left z hp
  refine Nat.modEq_zero_iff_dvd.mp ?_
  calc z + (2 ^ 256 - z * pinv % 2 ^ 256) % 2 ^ 256 * p
      ≡ z * (p * pinv) + (2 ^ 256 - z * pinv % 2 ^ 256) % 2 ^ 256 * p [MOD 2 ^ 256] := by
        simpa using hinv.symm.add_right _
    _ = ((2 ^ 256 - z * pinv % 2 ^ 256) % 2 ^ 256 + z * pinv) * p := by ring
    _ ≡ 0 * p [MOD 2 ^ 256] := hneg.mul_right p
    _ = 0 := Nat.zero_mul p

theorem montMul_comm {x y : Nat} (hx : x < 2 ^ 256) (hy : y < 2 ^ 256) : montMul x y = montMul y x := by
  have hm : montM x y = montM y x := eq_of_dvd_add_mul_p (montM_lt x y) (montM_lt y x) (dvd_add_montM_mul y hx)
    (Nat.mul_comm x y ▸ dvd_add_montM_mul x hy)
  have h : montMul x y * 2 ^ 256 = montMul y x * 2 ^ 256 := by
    rw [montMul_mul y hx, montMul_mul x hy, hm, Nat.mul_comm x y]
  exact Nat.eq_of_mul_eq_mul_right (by decide) h

/-! ### Residues (R140, R146, R147) -/

/-- MontMul is the residue whose product with 2^256 is x·y. -/
theorem montMul_modEq_of_mul {x y z : Nat} (hx : x < 2 ^ 256) (h : x * y ≡ z * 2 ^ 256 [MOD p]) :
    montMul x y ≡ z [MOD p] :=
  ((montMul_modEq y hx).trans h).cancel_right_of_coprime coprime_p_pow

theorem enc_lt (a : Nat) : enc a < p := Nat.mod_lt _ (by decide)

theorem enc_modEq (a : Nat) : enc a ≡ a * 2 ^ 256 [MOD p] := Nat.mod_modEq _ _

theorem enc_mod (a : Nat) : enc (a % p) = enc a := Nat.ModEq.mul_right _ (Nat.mod_modEq a p)

theorem montMul_enc (a b : Nat) : montMul (enc a) (enc b) % p = enc (a * b) := by
  have hprod : enc a * enc b ≡ a * b * 2 ^ 256 * 2 ^ 256 [MOD p] :=
    ((enc_modEq a).mul (enc_modEq b)).trans (by ring_nf; rfl)
  exact montMul_modEq_of_mul ((enc_lt a).trans p_lt_pow) hprod

theorem montVal_zero (x k : Nat) : montVal x 0 k = 0 := by
  induction k with
  | zero => rfl
  | succ k ih => simp [montVal, ih, montRound, montSum, montFactor]

theorem montMul_zero (x : Nat) : montMul x 0 = 0 := montVal_zero x 4

/-! ### Decode (R148) -/

theorem montMul_one_le {v : Nat} (hv : v < 2 ^ 256) : montMul v 1 ≤ p := by
  have h := montMul_mul 1 hv
  have hm := montM_lt v 1
  unfold p at *
  omega

theorem montMul_one_lt {v : Nat} (hv : v < p) : montMul v 1 < p := by
  have h := montMul_mul 1 (hv.trans p_lt_pow)
  have hm := montM_lt v 1
  unfold p at *
  omega

theorem montMul_one_eq_p_iff {v : Nat} (hv : v < 2 ^ 256) : montMul v 1 = p ↔ v ≠ 0 ∧ p ∣ v := by
  have h := montMul_mul 1 hv
  have hm := montM_lt v 1
  rw [Nat.mul_one] at h
  constructor
  · intro hp
    rw [hp] at h
    refine ⟨?_, (Nat.dvd_add_left (Nat.dvd_mul_left p _)).mp (h ▸ Nat.dvd_mul_right p _)⟩
    unfold p at h
    omega
  · rintro ⟨h0, hp⟩
    have hdvd : p ∣ montMul v 1 * 2 ^ 256 := h ▸ Nat.dvd_add hp (Nat.dvd_mul_left p _)
    have hpos : 0 < montMul v 1 := by omega
    exact (montMul_one_le hv).antisymm (Nat.le_of_dvd hpos (coprime_p_pow.dvd_of_dvd_mul_right hdvd))

end Sys2Proof.Machine

/-- Settles O21: the m of the closed form is the one below 2^256, so it is the round factors' sum. -/
theorem montMulClosedForm : Obligations.MontMulClosedForm := by
  unfold Obligations.MontMulClosedForm
  open Sys2Proof.Machine Sys2Proof.Config in
  intro pinv
  have hpinv : p * pinv % 2 ^ 256 = 1 := by decide
  refine ⟨hpinv, fun x y hx hy => ?_⟩
  intro m
  have hdvd := dvd_add_neg_mul_p hpinv (x * y)
  have hm : m < 2 ^ 256 := Nat.mod_lt _ (by decide)
  have hmontM : m = montM x y := eq_of_dvd_add_mul_p hm (montM_lt x y) hdvd (dvd_add_montM_mul y hx)
  refine ⟨Nat.mod_eq_zero_of_dvd hdvd, ?_, fun m' hm' h' => ?_, ?_, fun hxp => ?_⟩
  · rw [hmontM, ← montMul_mul y hx, Nat.mul_div_cancel _ (by decide)]
  · exact eq_of_dvd_add_mul_p hm' hm (Nat.dvd_of_mod_eq_zero h') hdvd
  · rw [hmontM]
    simp [montM, montFactorSum]
  · exact montMul_comm hx (hy.trans p_lt_pow)

/-- Settles O20: a round starts below 2p, and the example is computed. -/
theorem montMulBounds : Obligations.MontMulBounds := by
  unfold Obligations.MontMulBounds
  open Sys2Proof.Machine Sys2Proof.Config in
  refine ⟨fun x y hx hy => ⟨rfl, fun k _ => montVal_lt hy k, fun k _ => ?_, montMul_lt x hy⟩, ?_, by decide⟩
  · exact montSum_lt hy (montVal_lt hy k) (Nat.mod_lt _ (by decide))
  · have hp : p < 2 ^ 252 := by decide
    rw [show 317 = 65 + 252 from rfl, Nat.pow_add]
    exact Nat.mul_lt_mul_of_pos_left hp (by decide)

/-- Settles O22: both parts cancel 2^256, which is prime to p. -/
theorem montMulCongruence : Obligations.MontMulCongruence := by
  unfold Obligations.MontMulCongruence
  open Sys2Proof.Machine in
  exact ⟨fun x y hx _ => montMul_modEq y hx, montMul_enc⟩

/-- Settles O23: the product and the identity are products of residues; zero and commutativity are equations of
MontMul itself. -/
theorem montMulProperties : Obligations.MontMulProperties := by
  unfold Obligations.MontMulProperties
  open Sys2Proof.Machine Sys2Proof.Config Sys2Proof.Statements in
  intro a b _ _
  have hprod : montMul (enc a) (enc b) % p = enc (a * b % p) := by rw [montMul_enc, enc_mod]
  refine ⟨⟨hprod, montMul_lt _ (enc_lt b), fun h => h.trans_lt (enc_lt _), fun h => ?_⟩, ?_,
    fun x _ => ⟨?_, montMul_zero x⟩, fun x y hx hy => montMul_comm (hx.trans p_lt_pow) (hy.trans p_lt_pow)⟩
  · rw [← hprod, Nat.mod_eq_of_lt h]
  · rw [montMul_enc, Nat.one_mul, Nat.mod_eq_of_lt (enc_lt a)]
  · rw [show enc 0 = 0 from rfl, montMul_zero]

/-- Settles O24: encode multiplies by 2^512 and divides by 2^256; decode divides by 2^256. -/
theorem montMulEncodeDecode : Obligations.MontMulEncodeDecode := by
  unfold Obligations.MontMulEncodeDecode
  open Sys2Proof.Machine Sys2Proof.Config Sys2Proof.Statements in
  intro r2
  have hr2 : r2 = 2 ^ 256 * 2 ^ 256 % p := by decide
  refine ⟨hr2, fun a ha => ⟨?_, ?_⟩, fun v hv =>
    ⟨?_, montMul_one_le hv, montMul_one_lt, fun h => ?_, fun h0 hp => ?_⟩⟩
  · have hprod : a * r2 ≡ a * 2 ^ 256 * 2 ^ 256 [MOD p] := by
      rw [hr2, Nat.mul_assoc]
      exact (Nat.mod_modEq _ p).mul_left a
    exact montMul_modEq_of_mul ha hprod
  · exact montMul_lt a (hr2 ▸ Nat.mod_lt _ (by decide))
  · exact (montMul_modEq 1 hv).trans (by rw [Nat.mul_one])
  · exact ((montMul_one_eq_p_iff hv).mp h).imp_right Nat.mod_eq_zero_of_dvd
  · exact (montMul_one_eq_p_iff hv).mpr ⟨h0, Nat.dvd_of_mod_eq_zero hp⟩

/-- Settles O19: the sum of steps 1 to 3 of a round with x_i·y = 0. -/
theorem roundClearsLowLimb : Obligations.RoundClearsLowLimb := by
  unfold Obligations.RoundClearsLowLimb
  open Sys2Proof.Machine in
  intro val
  constructor
  · unfold montFactor
    omega
  · exact Nat.mod_eq_zero_of_dvd (by simpa [montSum] using dvd_montSum 0 val 0)
end

section
/-! MUL as a command: its engine step as a whole, its frame, and who writes RES (R41, R143 to R145); the engine step of
the running command as a step of the machine (R240, R241). -/

namespace Sys2Proof.Machine

open Sys2Proof.Statements (runs)

/-! ### The running command -/

/-- The engine step while a command runs is that command (R143, R175). -/
theorem engineStep_of_runs {i : Instr} {s : State} (h : s.fsm = runs i) : engineStep s = exec i s := by
  cases i with
  | mul => rw [engineStep, h]; rfl
  | nttLayer => rw [engineStep, h]; rfl

theorem engineStep_of_idle {s : State} (h : s.fsm = .idle) : engineStep s = .next s := by
  rw [engineStep, h]

theorem busy_of_runs {i : Instr} {s : State} (h : s.fsm = runs i) : busy s = true := by
  cases i <;> rw [busy, h] <;> rfl

/-! ### MUL -/

/-- What MUL does, by the state of the engine (log entry 10). -/
theorem exec_mul_cases {s t : State} (h : exec .mul s = .next t) :
    (s.fsm = .idle ∧ t = acceptMul s) ∨ (s.fsm = .mulBusy ∧ t = mulStep s) ∨
      (s.fsm = .nttBusy ∧ t = flagsOverrun s) := by
  cases hf : s.fsm with
  | idle =>
    rw [exec_mul_idle hf] at h
    cases h
    exact .inl ⟨rfl, rfl⟩
  | mulBusy =>
    rw [exec_mul_busy hf] at h
    cases h
    exact .inr (.inl ⟨rfl, rfl⟩)
  | nttBusy =>
    rw [exec_mul_other hf] at h
    cases h
    exact .inr (.inr ⟨rfl, rfl⟩)

/-- A state with another memory and another record of the other command: all that R144 says MUL does not read. -/
abbrev withNttData (m : Memory) (ntt : NttParams) (c : Word) (lat : NttParams) (o : Nat) (n : Word) (s : State) :
    State :=
  { s with mem := m, ntt := ntt, bflyCount := c, lat := lat, o := o, n := n }

/-- MUL does the same whatever data memory and the state of the other command are (R144). -/
theorem exec_mul_withNttData (m : Memory) (ntt : NttParams) (c : Word) (lat : NttParams) (o : Nat) (n : Word)
    {s t : State} (h : exec .mul s = .next t) :
    exec .mul (withNttData m ntt c lat o n s) = .next (withNttData m ntt c lat o n t) := by
  rcases exec_mul_cases h with ⟨hf, rfl⟩ | ⟨hf, rfl⟩ | ⟨hf, rfl⟩
  · exact exec_mul_idle (s := withNttData m ntt c lat o n s) hf
  · exact exec_mul_busy (s := withNttData m ntt c lat o n s) hf
  · exact exec_mul_other (s := withNttData m ntt c lat o n s) hf

/-- Of the effects of a step, only MUL's engine step and a reset change RES (R41, R145). -/
theorem StepEffect.res_changes {s t : State} (h : StepEffect s t) (hne : t.res ≠ s.res) :
    (s.fsm = .mulBusy ∧ t = mulStep (eventTaken s)) ∨ s.inputs.head? = some .reset := by
  cases h with
  | mul _ hf => exact .inl ⟨hf, rfl⟩
  | reset he => exact .inr he
  | layer _ _ hl => cases hl <;> exact absurd rfl hne
  | @register r v _ => cases r <;> exact absurd rfl hne
  | _ => exact absurd rfl hne

end Sys2Proof.Machine

/-- Settles O27: the frame in each of the three states of the engine, and the same outcome for any memory. -/
theorem mulTouchesNothingElse : Obligations.MulTouchesNothingElse := by
  unfold Obligations.MulTouchesNothingElse
  open Sys2Proof.Machine in
  intro s t h
  have hdata m ntt c lat o n := exec_mul_withNttData m ntt c lat o n h
  rcases exec_mul_cases h with ⟨hf, rfl⟩ | ⟨hf, rfl⟩ | ⟨hf, rfl⟩
  · exact ⟨by simp, fun _ => by simp, by simp [hf], by simp [hf], hdata⟩
  · exact ⟨by simp, by simp [hf], fun _ => by simp, by simp [hf], hdata⟩
  · exact ⟨by simp, by simp [hf], by simp [hf], fun _ => rfl, hdata⟩

/-- Settles O28: MUL's engine step ends it. -/
theorem resOnlyFromMul : Obligations.ResOnlyFromMul := by
  unfold Obligations.ResOnlyFromMul
  open Sys2Proof.Machine in
  intro s t h hne
  refine ((step_effect h).res_changes hne).imp_left ?_
  rintro ⟨hf, rfl⟩
  exact ⟨hf, rfl, rfl, rfl⟩

/-- Settles O5: the first event of the list, or with none placed what the machine does by itself, is an engine step. -/
theorem stepRunsEngine : Obligations.StepRunsEngine := by
  unfold Obligations.StepRunsEngine
  open Sys2Proof.Machine in
  refine fun s rest => ⟨fun i hf hi => ?_, fun i hf hi => ?_, fun hf hi => ?_⟩
  · rw [step_cons hi, handleEvent]
    exact engineStep_of_runs (s := takeInput rest s) hf
  · rw [step_nil hi, backgroundStep, if_pos (busy_of_runs hf), engineStep_of_runs hf]
  · rw [step_cons hi, handleEvent]
    exact engineStep_of_idle (s := takeInput rest s) hf

/-- Settles O25: the engine step of MUL, with the draw counted when the value is free. -/
theorem mulCompletes : Obligations.MulCompletes := by
  unfold Obligations.MulCompletes
  open Sys2Proof.Machine in
  intro s hf
  rw [exec_mul_busy hf]
  by_cases hy : s.ly.toNat < Sys2Proof.Config.p <;>
    simp [mulStep, finishCommand, flagsFinish, mulResult, mulDraws, Limbs.ofElem, hy]
end

section
/-! The offsets a layer's walk visits (R176, R177, R195) and the addresses of its butterflies (R174, R178, R191). -/

namespace Sys2Proof.Machine

open Sys2Proof.Safety (add_32_le_advance advance_le)

/-! ### Advance (R176) -/

theorem advance_of_and_ne {o d : Nat} (h : (o + 32) &&& d ≠ 0) : advance o d = o + 32 + d := if_pos h

theorem advance_of_and_eq {o d : Nat} (h : (o + 32) &&& d = 0) : advance o d = o + 32 := if_neg (not_not_intro h)

/-! ### The offsets of a walk -/

/-- Advance with the distance d goes from each number in `V` to the next one in `V`. -/
def AdvanceIsNext (d : Nat) (V : Nat → Prop) : Prop :=
  ∀ o, V o → V (advance o d) ∧ ∀ x, V x → o < x → advance o d ≤ x

/-- A walk with fuel enough visits the numbers of `V` from its first offset on that are below the end. -/
theorem mem_walk_iff {d n : Nat} {V : Nat → Prop} (hV : AdvanceIsNext d V) (fuel : Nat) {o : Nat} (ho : V o)
    (hf : n ≤ o + 32 * fuel) (x : Nat) : x ∈ walk d n fuel o ↔ V x ∧ o ≤ x ∧ x < n := by
  induction fuel generalizing o with
  | zero =>
    simp only [walk, List.not_mem_nil, false_iff]
    omega
  | succ fuel ih =>
    obtain ⟨hadv, hnext⟩ := hV o ho
    have hle := add_32_le_advance o d
    unfold walk
    split
    · rw [List.mem_cons, ih hadv (by omega)]
      constructor
      · rintro (rfl | ⟨hx, hox, hxn⟩)
        · exact ⟨ho, le_rfl, ‹_›⟩
        · exact ⟨hx, by omega, hxn⟩
      · rintro ⟨hx, hox, hxn⟩
        rcases hox.eq_or_lt with rfl | hlt
        · exact .inl rfl
        · exact .inr ⟨hx, hnext x hx hlt, hxn⟩
    · simp only [List.not_mem_nil, false_iff]
      omega

theorem le_of_mem_walk {d n fuel o x : Nat} (h : x ∈ walk d n fuel o) : o ≤ x := by
  induction fuel generalizing o with
  | zero => simp [walk] at h
  | succ fuel ih =>
    unfold walk at h
    split at h
    · rcases List.mem_cons.mp h with rfl | h
      · exact le_rfl
      · have hle := add_32_le_advance o d
        have := ih h
        omega
    · simp at h

/-- A walk goes upwards. -/
theorem walk_pairwise_lt (d n fuel o : Nat) : (walk d n fuel o).Pairwise (· < ·) := by
  induction fuel generalizing o with
  | zero => exact .nil
  | succ fuel ih =>
    unfold walk
    split
    · refine .cons (fun x hx => ?_) (ih _)
      have hle := add_32_le_advance o d
      have := le_of_mem_walk hx
      omega
    · exact .nil

/-- A whole walk is the rising list of the numbers of `V` below the end. -/
theorem walk_eq_of_mem_iff {d n : Nat} {V : Nat → Prop} {l : List Nat} (hV : AdvanceIsNext d V) (h0 : V 0)
    (hl : l.Pairwise (· < ·)) (hm : ∀ x, x ∈ l ↔ V x ∧ x < n) : walk d n ((n + 31) / 32) 0 = l := by
  refine (walk_pairwise_lt _ _ _ _).eq_of_mem_iff hl fun x => ?_
  rw [mem_walk_iff hV _ h0 (by omega), hm]
  simp

/-! ### Multiples of 32 -/

theorem multiples_pairwise_lt (m : Nat) : ((List.range m).map (32 * ·)).Pairwise (· < ·) := by
  rw [List.pairwise_map]
  exact List.pairwise_lt_range.imp fun h => by omega

theorem mem_multiples_iff (n x : Nat) : x ∈ (List.range ((n + 31) / 32)).map (32 * ·) ↔ 32 ∣ x ∧ x < n := by
  simp only [List.mem_map, List.mem_range]
  constructor
  · rintro ⟨i, hi, rfl⟩
    exact ⟨Nat.dvd_mul_right 32 i, by omega⟩
  · rintro ⟨⟨i, rfl⟩, hx⟩
    exact ⟨i, by omega, rfl⟩

/-- With a distance that no multiple of 32 meets in a bit, the walk visits every multiple of 32 (R177). -/
theorem walk_eq_multiples {d : Nat} (n : Nat) (hd : ∀ o, 32 ∣ o → o &&& d = 0) :
    walk d n ((n + 31) / 32) 0 = (List.range ((n + 31) / 32)).map (32 * ·) := by
  refine walk_eq_of_mem_iff (fun o ho => ?_) (Nat.dvd_zero 32) (multiples_pairwise_lt _) (mem_multiples_iff n)
  have ho' : 32 ∣ o + 32 := Nat.dvd_add_self_right.mpr ho
  rw [advance_of_and_eq (hd _ ho')]
  exact ⟨ho', fun x hx hlt => by omega⟩

theorem and_16_of_dvd {o : Nat} (h : 32 ∣ o) : o &&& 16 = 0 := by
  have hbit : o.testBit 4 = false := by
    rw [Nat.testBit_eq_decide_div_mod_eq]
    simp only [decide_eq_false_iff_not]
    omega
  rw [show 16 = 2 ^ 4 from rfl, Nat.and_two_pow, hbit]
  rfl

/-! ### A power-of-two distance of at least one element (R177) -/

/-- Of the distance 32·2^k, the multiples of 32 with bit log2(d) clear: the offsets of in2 from the first in1. -/
def BitClear (k o : Nat) : Prop := 32 ∣ o ∧ o &&& (32 * 2 ^ k) = 0

/-- Bit log2(d) of o is the parity of the half chunk that o lies in. -/
theorem and_dist_eq_zero_iff (k o : Nat) : o &&& (32 * 2 ^ k) = 0 ↔ o / (32 * 2 ^ k) % 2 = 0 := by
  rw [show 32 * 2 ^ k = 2 ^ (5 + k) by rw [Nat.pow_add], Nat.and_two_pow, Nat.testBit_eq_decide_div_mod_eq,
    Nat.mul_eq_zero, Bool.toNat_eq_zero, decide_eq_false_iff_not]
  have := Nat.two_pow_pos (5 + k)
  omega

/-- The offsets with the bit clear are those of the first half of a chunk c, at its position j. -/
theorem bitClear_iff {k o : Nat} : BitClear k o ↔ ∃ c j, j < 2 ^ k ∧ o = 2 * (32 * 2 ^ k) * c + 32 * j := by
  rw [BitClear, and_dist_eq_zero_iff]
  have hpos := Nat.two_pow_pos k
  generalize 2 ^ k = q at hpos ⊢
  constructor
  · rintro ⟨hdvd, hev⟩
    have hdiv := Nat.div_add_mod o (32 * q)
    have hlt := Nat.mod_lt o (show 0 < 32 * q by omega)
    have hmod : 32 ∣ o % (32 * q) := (Nat.dvd_mod_iff (Nat.dvd_mul_right 32 q)).mpr hdvd
    refine ⟨o / (32 * q) / 2, o % (32 * q) / 32, by omega, ?_⟩
    calc o = 32 * q * (2 * (o / (32 * q) / 2)) + 32 * (o % (32 * q) / 32) := by
            rw [Nat.mul_div_cancel' hmod, Nat.mul_div_cancel' (Nat.dvd_of_mod_eq_zero hev), hdiv]
      _ = 2 * (32 * q) * (o / (32 * q) / 2) + 32 * (o % (32 * q) / 32) := by ring
  · rintro ⟨c, j, hj, rfl⟩
    rw [show 2 * (32 * q) * c + 32 * j = 32 * j + 32 * q * (2 * c) by ring,
      Nat.add_mul_div_left _ _ (by omega), Nat.div_eq_of_lt (by omega)]
    exact ⟨⟨j + q * (2 * c), by ring⟩, by omega⟩

theorem bitClear_zero (k : Nat) : BitClear k 0 := ⟨Nat.dvd_zero 32, Nat.zero_and _⟩

/-- An offset and the same one a distance further are not both clear. -/
theorem BitClear.add_dist_ne {k o o' : Nat} (h : BitClear k o) (h' : BitClear k o') : o + 32 * 2 ^ k ≠ o' := by
  rintro rfl
  have hpos := Nat.two_pow_pos k
  have ho := (and_dist_eq_zero_iff k o).mp h.2
  have ho' := (and_dist_eq_zero_iff k _).mp h'.2
  rw [Nat.add_div_right _ (by omega)] at ho'
  omega

/-- From the last offset of a half chunk Advance goes over the other half, from every other one to the next element. -/
theorem advanceIsNext_bitClear (k : Nat) : AdvanceIsNext (32 * 2 ^ k) (BitClear k) := by
  intro o ho
  obtain ⟨c, j, hj, hcj⟩ := bitClear_iff.mp ho
  by_cases hlast : j + 1 < 2 ^ k
  · have hclear : BitClear k (o + 32) := bitClear_iff.mpr ⟨c, j + 1, hlast, by omega⟩
    rw [advance_of_and_eq hclear.2]
    refine ⟨hclear, fun x hx hlt => ?_⟩
    have := ho.1
    have := hx.1
    omega
  · have hhalf : o + 32 = 2 * (32 * 2 ^ k) * c + 32 * 2 ^ k := by omega
    have hset : (o + 32) &&& (32 * 2 ^ k) ≠ 0 := fun h0 =>
      BitClear.add_dist_ne (bitClear_iff.mpr ⟨c, 0, Nat.two_pow_pos k, rfl⟩)
        ⟨Nat.dvd_add_self_right.mpr ho.1, h0⟩ hhalf.symm
    have hnew : o + 32 + 32 * 2 ^ k = 2 * (32 * 2 ^ k) * (c + 1) := by rw [hhalf]; ring
    rw [advance_of_and_ne hset, hnew]
    refine ⟨bitClear_iff.mpr ⟨c + 1, 0, Nat.two_pow_pos k, rfl⟩, fun x hx hlt => ?_⟩
    obtain ⟨c', j', hj', rfl⟩ := bitClear_iff.mp hx
    by_cases hc : c' ≤ c
    · have := Nat.mul_le_mul_left (2 * (32 * 2 ^ k)) hc
      omega
    · have := Nat.mul_le_mul_left (2 * (32 * 2 ^ k)) (show c + 1 ≤ c' by omega)
      omega

theorem mem_offsets_iff {l : NttParams} {k : Nat} (hd : l.dist.toNat = 32 * 2 ^ k) (n : Word) (o : Nat) :
    o ∈ offsets l n ↔ BitClear k o ∧ o < n.toNat := by
  rw [offsets, hd, mem_walk_iff (advanceIsNext_bitClear k) _ (bitClear_zero k) (by omega)]
  simp

/-! ### Whole chunks (R195) -/

/-- The offsets of the first C chunks of the distance 32·2^k, chunk by chunk. -/
def chunkOffsets (k C : Nat) : List Nat :=
  (List.range C).flatMap fun c => (List.range (2 ^ k)).map fun j => 2 * (32 * 2 ^ k) * c + 32 * j

theorem chunkOffsets_length (k C : Nat) : (chunkOffsets k C).length = C * 2 ^ k := by
  simp [chunkOffsets, List.length_flatMap]

theorem mem_chunkOffsets_iff (k C o : Nat) :
    o ∈ chunkOffsets k C ↔ ∃ c j, c < C ∧ j < 2 ^ k ∧ o = 2 * (32 * 2 ^ k) * c + 32 * j := by
  simp only [chunkOffsets, List.mem_flatMap, List.mem_map, List.mem_range]
  constructor
  · rintro ⟨c, hc, j, hj, rfl⟩
    exact ⟨c, j, hc, hj, rfl⟩
  · rintro ⟨c, j, hc, hj, rfl⟩
    exact ⟨c, hc, j, hj, rfl⟩

theorem chunkOffsets_pairwise_lt (k C : Nat) : (chunkOffsets k C).Pairwise (· < ·) := by
  refine List.pairwise_flatMap.mpr ⟨fun c _ => ?_, List.pairwise_lt_range.imp fun {c c'} hc x hx y hy => ?_⟩
  · rw [List.pairwise_map]
    exact List.pairwise_lt_range.imp fun h => by omega
  · simp only [List.mem_map, List.mem_range] at hx hy
    obtain ⟨j, hj, rfl⟩ := hx
    obtain ⟨j', hj', rfl⟩ := hy
    have := Nat.mul_le_mul_left (2 * (32 * 2 ^ k)) (show c + 1 ≤ c' from hc)
    rw [Nat.mul_succ] at this
    omega

/-- A region that ends in the second half of chunk C - 1 or at its end has the offsets of the first C chunks. -/
theorem walk_eq_chunkOffsets {k C n : Nat} (hlo : 2 * (32 * 2 ^ k) * C < n + 32 * 2 ^ k + 32)
    (hhi : n ≤ 2 * (32 * 2 ^ k) * C) : walk (32 * 2 ^ k) n ((n + 31) / 32) 0 = chunkOffsets k C := by
  refine walk_eq_of_mem_iff (advanceIsNext_bitClear k) (bitClear_zero k) (chunkOffsets_pairwise_lt k C) fun x => ?_
  rw [mem_chunkOffsets_iff, bitClear_iff]
  constructor
  · rintro ⟨c, j, hc, hj, rfl⟩
    have := Nat.mul_le_mul_left (2 * (32 * 2 ^ k)) (show c + 1 ≤ C from hc)
    rw [Nat.mul_succ] at this
    exact ⟨⟨c, j, hj, rfl⟩, by omega⟩
  · rintro ⟨⟨c, j, hj, rfl⟩, hx⟩
    refine ⟨c, j, ?_, hj, rfl⟩
    by_contra hc
    have := Nat.mul_le_mul_left (2 * (32 * 2 ^ k)) (show C ≤ c by omega)
    omega

/-- The region's length as a difference of the two addresses (R173): none where the end is not above the start. -/
theorem loopLength_toNat (l : NttParams) : (loopLength l).toNat = l.srcEnd.toNat - l.src.toNat := by
  unfold loopLength
  split
  · rename_i h
    exact BitVec.toNat_sub_of_le (BitVec.le_of_lt h)
  · rename_i h
    rw [BitVec.not_lt, BitVec.le_def] at h
    exact (Nat.sub_eq_zero_of_le h).symm

/-! ### The addresses of a butterfly (R174, R178) -/

theorem in1Addr_eq (l : NttParams) (o : Nat) : in1Addr l o = l.src - l.dist + BitVec.ofNat 64 o := by
  rw [in1Addr, in2Addr]
  ring

theorem in2Addr_eq (l : NttParams) (o : Nat) :
    in2Addr l o = l.src - l.dist + BitVec.ofNat 64 (o + l.dist.toNat) := by
  rw [in2Addr, BitVec.ofNat_add, BitVec.ofNat_toNat, BitVec.setWidth_eq]
  ring

/-- A mask of 32·m acts on the number of the element, and clears the offset inside it. -/
theorem and_32_mul (o m : Nat) : o &&& (32 * m) = 32 * (o / 32 &&& m) := by
  apply Nat.eq_of_testBit_eq
  intro i
  rw [Nat.testBit_and, show (32 : Nat) = 2 ^ 5 from rfl, Nat.testBit_two_pow_mul, Nat.testBit_two_pow_mul,
    Nat.testBit_and, Nat.testBit_div_two_pow]
  by_cases hi : 5 ≤ i <;> simp [hi]

/-! ### Pairs in place (R191) -/

/-- Elements at different multiples of 32 below 2^64 from one base share no byte. -/
theorem inElem_eq_false_of_ne {a b : Word} {x y : Nat} (hx : 32 ∣ x ∧ x < 2 ^ 64) (hy : 32 ∣ y ∧ y < 2 ^ 64)
    (hne : x ≠ y) (hb : inElem (a + BitVec.ofNat 64 x) b = true) : inElem (a + BitVec.ofNat 64 y) b = false := by
  rw [← Bool.not_eq_true]
  intro hb'
  obtain ⟨i, hi, rfl⟩ := (inElem_iff _ _).mp hb
  obtain ⟨j, hj, hij⟩ := (inElem_iff _ _).mp hb'
  rw [BitVec.add_assoc, BitVec.add_assoc, BitVec.add_right_inj, ← BitVec.ofNat_add, ← BitVec.ofNat_add] at hij
  have hij := congrArg BitVec.toNat hij
  simp only [BitVec.toNat_ofNat] at hij
  omega

/-- An offset of a layer and the one a distance further lie below 2^64. -/
theorem BitClear.add_dist_lt {k o : Nat} (h : BitClear k o) (ho : o < 2 ^ 64) (hk : 32 * 2 ^ k < 2 ^ 64) :
    o + 32 * 2 ^ k < 2 ^ 64 := by
  have hexp : 5 + k < 64 := by
    rw [show 32 * 2 ^ k = 2 ^ (5 + k) by rw [Nat.pow_add]] at hk
    exact (Nat.pow_lt_pow_iff_right (by decide)).mp hk
  obtain ⟨m, hm⟩ : 2 * (32 * 2 ^ k) ∣ 2 ^ 64 := by
    rw [show 2 * (32 * 2 ^ k) = 2 ^ (6 + k) by rw [Nat.pow_add]; ring]
    exact Nat.pow_dvd_pow 2 (by omega)
  obtain ⟨c, j, hj, rfl⟩ := bitClear_iff.mp h
  have hc : c < m := by
    by_contra hc
    have := Nat.mul_le_mul_left (2 * (32 * 2 ^ k)) (show m ≤ c by omega)
    omega
  have := Nat.mul_le_mul_left (2 * (32 * 2 ^ k)) (show c + 1 ≤ m from hc)
  rw [Nat.mul_succ] at this
  omega

/-- The pairs of two offsets of a layer share no byte. -/
theorem pairs_disjoint {l : NttParams} {n : Word} {k o o' : Nat} (hd : l.dist.toNat = 32 * 2 ^ k)
    (ho : o ∈ offsets l n) (ho' : o' ∈ offsets l n) (hne : o ≠ o') {b : Word}
    (hb : inElem (in1Addr l o) b = true ∨ inElem (in2Addr l o) b = true) :
    inElem (in1Addr l o') b = false ∧ inElem (in2Addr l o') b = false := by
  obtain ⟨hc, hon⟩ := (mem_offsets_iff hd n o).mp ho
  obtain ⟨hc', hon'⟩ := (mem_offsets_iff hd n o').mp ho'
  have hn := n.isLt
  have hdlt := hd ▸ l.dist.isLt
  have hdvd : 32 ∣ 32 * 2 ^ k := Nat.dvd_mul_right 32 _
  have hsecond : 32 ∣ o + 32 * 2 ^ k ∧ o + 32 * 2 ^ k < 2 ^ 64 :=
    ⟨Nat.dvd_add hc.1 hdvd, hc.add_dist_lt (by omega) hdlt⟩
  have hsecond' : 32 ∣ o' + 32 * 2 ^ k ∧ o' + 32 * 2 ^ k < 2 ^ 64 :=
    ⟨Nat.dvd_add hc'.1 hdvd, hc'.add_dist_lt (by omega) hdlt⟩
  have hfirst : 32 ∣ o ∧ o < 2 ^ 64 := ⟨hc.1, by omega⟩
  have hfirst' : 32 ∣ o' ∧ o' < 2 ^ 64 := ⟨hc'.1, by omega⟩
  rw [in1Addr_eq, in2Addr_eq, hd] at hb ⊢
  rcases hb with hb | hb
  · exact ⟨inElem_eq_false_of_ne hfirst hfirst' hne hb,
      inElem_eq_false_of_ne hfirst hsecond' (hc'.add_dist_ne hc).symm hb⟩
  · exact ⟨inElem_eq_false_of_ne hsecond hfirst' (hc.add_dist_ne hc') hb,
      inElem_eq_false_of_ne hsecond hsecond' (by omega) hb⟩

end Sys2Proof.Machine

/-- Settles O29: the two cases of Advance, and its upper bound. -/
theorem advanceRule : Obligations.AdvanceRule := by
  unfold Obligations.AdvanceRule
  open Sys2Proof.Machine in
  refine fun o d => ⟨advance_of_and_ne, advance_of_and_eq, fun ho hd => ?_⟩
  have := Sys2Proof.Safety.advance_le o d
  omega

/-- Settles O30: a walk is the rising list of the numbers that Advance goes through one by one: with a power of two
those with its bit clear, with 0 and 16 all multiples of 32. -/
theorem walkVisits : Obligations.WalkVisits := by
  unfold Obligations.WalkVisits
  open Sys2Proof.Machine Sys2Proof.Safety in
  refine ⟨fun k n => ?_, fun k i => ?_, fun l k c j hd hj => ⟨in1Addr_eq l _, ?_⟩, fun n => ?_, fun l o hd => ?_,
    fun o d => ⟨add_32_le_advance o d, advance_le o d⟩, fun n => ?_, fun i => ?_⟩
  · refine walk_eq_of_mem_iff (advanceIsNext_bitClear k) (bitClear_zero k) ((multiples_pairwise_lt _).filter _)
      fun x => ?_
    rw [List.mem_filter, mem_multiples_iff, beq_iff_eq, BitClear]
    tauto
  · exact (and_iff_right (Nat.dvd_mul_right 32 i)).symm.trans bitClear_iff
  · rw [in2Addr_eq, hd, Nat.add_right_comm]
  · exact walk_eq_multiples n fun o _ => Nat.and_zero o
  · simp [in1Addr, hd]
  · exact walk_eq_multiples n fun o => and_16_of_dvd
  · have hset : (128 * i + 32) &&& 96 ≠ 0 := by
      rw [show 96 = 32 * 3 from rfl, and_32_mul, show 3 = 2 ^ 2 - 1 from rfl, Nat.and_two_pow_sub_one_eq_mod]
      omega
    rw [advance_of_and_ne hset]
    ring

/-- Settles O31: both bounds on NTT_END put the region's end in the second half of the last chunk. -/
theorem endConventions : Obligations.EndConventions := by
  unfold Obligations.EndConventions
  open Sys2Proof.Machine in
  intro l k C A
  dsimp only
  intro hd hsrc hlo hhi
  have hlen := loopLength_toNat l
  have hoff : offsets l (loopLength l) = chunkOffsets k C := by
    rw [offsets, hd]
    exact walk_eq_chunkOffsets (by omega) (by omega)
  refine ⟨hoff, ?_⟩
  rw [hoff, chunkOffsets_length, show C * (32 * 2 ^ k) = C * 2 ^ k * 32 by ring, Nat.mul_div_cancel _ (by decide)]

/-- Settles O32: the shift leaves the chunk's number or the whole offset, and the mask selects its low bits. -/
theorem twiddleAddress : Obligations.TwiddleAddress := by
  unfold Obligations.TwiddleAddress
  open Sys2Proof.Machine in
  refine fun l => ⟨fun o ho hs => ?_, fun k c j _ hj hs hm => ?_, fun k c j t _ hj _ hs hm => ?_⟩ <;> unfold twAddr
  · rw [Nat.shiftRight_eq_zero o _ (ho.trans_le (Nat.pow_le_pow_right (by decide) hs)), Nat.zero_and]
    exact BitVec.add_zero _
  · have hpow : 32 * 2 ^ k = 2 ^ (5 + k) := by rw [Nat.pow_add]
    have hmod : (2 * (32 * 2 ^ k) * c + 32 * j) % (32 * 2 ^ k) = 32 * j := by
      rw [show 2 * (32 * 2 ^ k) * c + 32 * j = 32 * j + 32 * 2 ^ k * (2 * c) by ring, Nat.add_mul_mod_self_left,
        Nat.mod_eq_of_lt (by omega)]
    rw [hs, hm, show BitVec.toNat (0 : BitVec 32) = 0 from rfl, Nat.shiftRight_zero, hpow,
      Nat.and_two_pow_sub_one_eq_mod, ← hpow, hmod]
  · have hdiv : (2 * (32 * 2 ^ k) * c + 32 * j) / 2 ^ (k + 1) / 32 = c := by
      rw [Nat.div_div_eq_div_mul,
        show 2 * (32 * 2 ^ k) * c + 32 * j = 32 * j + 2 ^ (k + 1) * 32 * c by ring,
        Nat.add_mul_div_left _ _ (by positivity), Nat.div_eq_of_lt (by rw [Nat.pow_succ]; omega), Nat.zero_add]
    rw [hs, hm, Nat.shiftRight_eq_div_pow, and_32_mul, hdiv, Nat.and_two_pow_sub_one_eq_mod]

/-- Settles O33: in place the destinations are the pair read, and the pairs of two offsets share no byte. -/
theorem inPlacePairsAreDisjoint : Obligations.InPlacePairsAreDisjoint := by
  unfold Obligations.InPlacePairsAreDisjoint
  open Sys2Proof.Machine in
  intro l n k o o' hoff hd ho ho' hne
  have h1 : out1Addr l o = in1Addr l o := by rw [out1Addr, hoff]; exact BitVec.add_zero _
  have h2 : out2Addr l o = in2Addr l o := by rw [out2Addr, hoff]; exact BitVec.add_zero _
  rw [h1, h2]
  exact ⟨rfl, rfl, fun b hb => pairs_disjoint hd ho ho' hne hb⟩
end

section
/-! The lazy butterfly as integers (R180 to R184) and its 256-bit datapath (R185). -/

namespace Sys2Proof.Machine

open Sys2Proof.Config (p)
open Sys2Proof.Statements (enc)

/-! ### The integers (R184) -/

theorem lazyReduce2p_lt {a : Nat} (h : a < 4 * p) : lazyReduce2p a < 2 * p := by
  unfold lazyReduce2p
  split <;> omega

theorem lazyReduce2p_modEq (a : Nat) : lazyReduce2p a ≡ a [MOD p] := by
  unfold lazyReduce2p
  split
  · rfl
  · exact (Nat.modEq_iff_dvd' (Nat.sub_le a _)).mpr (by rw [Nat.sub_sub_self (by omega)]; exact Nat.dvd_mul_left p 2)

/-- out2 loses nothing to the subtraction, since the product is below 2p. -/
theorem bflyOut2_add_montMul (in1 in2 : Nat) {tw : Nat} (htw : tw < p) :
    bflyOut2 in1 in2 tw + montMul in2 tw = lazyReduce2p in1 + 2 * p :=
  Nat.sub_add_cancel ((montMul_lt in2 htw).le.trans (Nat.le_add_left _ _))

theorem bflyOut1_lt {in1 tw : Nat} (in2 : Nat) (h : in1 < 4 * p) (htw : tw < p) : bflyOut1 in1 in2 tw < 4 * p := by
  have := lazyReduce2p_lt h
  have := montMul_lt in2 htw
  unfold bflyOut1
  omega

theorem bflyOut2_pos (in1 in2 : Nat) {tw : Nat} (htw : tw < p) : 0 < bflyOut2 in1 in2 tw := by
  have := bflyOut2_add_montMul in1 in2 htw
  have := montMul_lt in2 htw
  omega

theorem bflyOut2_lt {in1 tw : Nat} (in2 : Nat) (h : in1 < 4 * p) (htw : tw < p) : bflyOut2 in1 in2 tw < 4 * p := by
  have := bflyOut2_add_montMul in1 in2 htw
  have := lazyReduce2p_lt h
  omega

/-- out1 has the residue of in1 plus the product. -/
theorem bflyOut1_modEq (in1 in2 tw : Nat) : bflyOut1 in1 in2 tw ≡ in1 + montMul in2 tw [MOD p] :=
  (lazyReduce2p_modEq in1).add_right _

/-- out2 has the residue of in1 minus the product. -/
theorem bflyOut2_modEq (in1 in2 : Nat) {tw : Nat} (htw : tw < p) :
    bflyOut2 in1 in2 tw + montMul in2 tw ≡ in1 [MOD p] := by
  rw [bflyOut2_add_montMul in1 in2 htw]
  exact (lazyReduce2p_modEq in1).add (Nat.modEq_zero_iff_dvd.mpr (Nat.dvd_mul_left p 2))

/-- The product of a Montgomery form, of any representative, and a twiddle's is the product's (R140). -/
theorem montMul_twiddle_modEq {in2 B : Nat} (T : Nat) (h : in2 < 2 ^ 256) (hB : in2 % p = enc B) :
    montMul in2 (enc T) ≡ enc (T * B) [MOD p] := by
  have hin2 : in2 ≡ enc B [MOD p] := hB ▸ (Nat.mod_modEq in2 p).symm
  refine montMul_modEq_of_mul h ?_
  calc in2 * enc T ≡ B * 2 ^ 256 * (T * 2 ^ 256) [MOD p] := (hin2.trans (enc_modEq B)).mul (enc_modEq T)
    _ = T * B * 2 ^ 256 * 2 ^ 256 := by ring
    _ ≡ enc (T * B) * 2 ^ 256 [MOD p] := (enc_modEq _).symm.mul_right _

theorem enc_add_modEq (a b : Nat) : enc a + enc b ≡ enc (a + b) [MOD p] := by
  calc enc a + enc b ≡ a * 2 ^ 256 + b * 2 ^ 256 [MOD p] := (enc_modEq a).add (enc_modEq b)
    _ = (a + b) * 2 ^ 256 := (Nat.add_mul a b _).symm
    _ ≡ enc (a + b) [MOD p] := (enc_modEq _).symm

/-! ### The 256-bit datapath (R185) -/

theorem Elem.getLsbD_255 (v : Elem) : v.getLsbD 255 = true ↔ 2 ^ 255 ≤ v.toNat := by
  have h := BitVec.msb_eq_decide v
  rw [BitVec.msb_eq_getLsbD_last] at h
  rw [h, decide_eq_true_eq]

/-- 2p as the datapath holds it. -/
abbrev twoP : Elem := BitVec.ofNat 256 (2 * p)

theorem twoP_toNat : twoP.toNat = 2 * p := by decide

/-- The difference modulo 2^256, with and without a borrow. -/
theorem sub_twoP_toNat (v : Elem) :
    (v - twoP).toNat = if v.toNat < 2 * p then v.toNat + 2 ^ 256 - 2 * p else v.toNat - 2 * p := by
  have hv := v.isLt
  have hp : 2 * p < 2 ^ 256 := by decide
  rw [BitVec.toNat_sub, twoP_toNat]
  split <;> omega

/-- Bit 255 of in1 - 2p is the borrow, since in1 is below 2p + 2^255. -/
theorem borrow_iff {v : Elem} (h : v.toNat < 4 * p) : (v - twoP).getLsbD 255 = true ↔ v.toNat < 2 * p := by
  rw [Elem.getLsbD_255, sub_twoP_toNat]
  unfold p at *
  split <;> omega

/-- The value the datapath selects for in1. -/
def selected (v : Elem) : Elem := if (v - twoP).getLsbD 255 then v else v - twoP

theorem selected_toNat {v : Elem} (h : v.toNat < 4 * p) : (selected v).toNat = lazyReduce2p v.toNat := by
  rw [selected, lazyReduce2p, apply_ite BitVec.toNat, sub_twoP_toNat]
  simp only [borrow_iff h]
  split <;> rfl

/-- The datapath's sum does not wrap. -/
theorem datapath_out1 {a t : Elem} (ha : a.toNat < 2 * p) (ht : t.toNat < 2 * p) :
    (a + t).toNat = a.toNat + t.toNat := by
  have hp : 4 * p < 2 ^ 256 := by decide
  rw [BitVec.toNat_add]
  exact Nat.mod_eq_of_lt (by omega)

/-- The datapath's difference wraps back when 2p is added. -/
theorem datapath_out2 {a t : Elem} (ha : a.toNat < 2 * p) (ht : t.toNat < 2 * p) :
    (a + (0 - t) + twoP).toNat = a.toNat + 2 * p - t.toNat := by
  have hp : 4 * p < 2 ^ 256 := by decide
  rw [BitVec.toNat_add, BitVec.toNat_add, BitVec.toNat_sub, twoP_toNat, show BitVec.toNat (0 : Elem) = 0 from rfl]
  omega

theorem montMul_elem_toNat (x : Nat) {y : Nat} (hy : y < p) : (BitVec.ofNat 256 (montMul x y)).toNat = montMul x y := by
  rw [BitVec.toNat_ofNat]
  exact Nat.mod_eq_of_lt ((montMul_lt x hy).trans (by decide))

end Sys2Proof.Machine

/-- Settles O38: the reduced in1 and the product are both below 2p; each output is congruent to in1 plus or minus the
product, whose product with 2^256 is in2·tw. -/
theorem lazyButterflyBounds : Obligations.LazyButterflyBounds := by
  unfold Obligations.LazyButterflyBounds
  open Sys2Proof.Machine Sys2Proof.Config Sys2Proof.Statements in
  refine ⟨by decide, fun in1 in2 tw h1 h2 htw => ?_⟩
  have hprod := montMul_modEq tw h2
  refine ⟨lazyReduce2p_lt h1, montMul_lt in2 htw, bflyOut1_lt in2 h1 htw, bflyOut2_pos in1 in2 htw,
    bflyOut2_lt in2 h1 htw, ?_, ?_, ?_⟩
  · have hout := (bflyOut1_modEq in1 in2 tw).mul_right (2 ^ 256)
    rw [Nat.add_mul] at hout
    exact hout.trans (hprod.add_left _)
  · have hout := (bflyOut2_modEq in1 in2 htw).mul_right (2 ^ 256)
    rw [Nat.add_mul] at hout
    exact (hprod.symm.add_left _).trans hout
  · rintro A B T hA hB rfl
    have hin1 : in1 ≡ enc A [MOD p] := hA ▸ (Nat.mod_modEq in1 p).symm
    have ht := montMul_twiddle_modEq T h2 hB
    have hout1 : bflyOut1 in1 in2 (enc T) ≡ enc (A + T * B) [MOD p] :=
      (bflyOut1_modEq in1 in2 _).trans ((hin1.add ht).trans (enc_add_modEq _ _))
    have hout2 : bflyOut2 in1 in2 (enc T) + enc (T * B) ≡ enc A [MOD p] :=
      (ht.symm.add_left _).trans ((bflyOut2_modEq in1 in2 htw).trans hin1)
    have henc (a : Nat) : enc a % p = enc a := Nat.mod_eq_of_lt (enc_lt a)
    exact ⟨Eq.trans hout1 (henc _), Eq.trans hout2 (henc _)⟩

/-- Settles O39: the borrow selects the reduced in1, and both sums of numbers below 2p fit in 256 bits. -/
theorem datapathMatchesIntegers : Obligations.DatapathMatchesIntegers := by
  unfold Obligations.DatapathMatchesIntegers
  open Sys2Proof.Machine in
  intro in1 in2 tw h1 htw
  have ha := selected_toNat h1
  have ht := montMul_elem_toNat in2.toNat htw
  have ha_lt := ha ▸ lazyReduce2p_lt h1
  have ht_lt := ht ▸ montMul_lt in2.toNat htw
  refine ⟨borrow_iff h1, ha, (datapath_out1 ha_lt ht_lt).trans ?_, (datapath_out2 ha_lt ht_lt).trans ?_⟩
  · rw [ha, ht, bflyOut1]
  · rw [ha, ht, bflyOut2]
end

section
/-! The engine step of NTT_LAYER (R175): what a whole butterfly and the completion step end in, what every step leaves
unchanged, and that its course does not depend on data. -/

namespace Sys2Proof.Machine

open Sys2Proof.Config (p)
open Sys2Proof.Statements

/-! ### A butterfly whose accesses complete (R186 to R188) -/

theorem bflyLegal_iff (in1 tw : Elem) : bflyLegal in1 tw = true ↔ in1.toNat < 4 * p ∧ tw.toNat < p := by
  rw [bflyLegal, Bool.and_eq_true, decide_eq_true_eq, decide_eq_true_eq]

theorem bflyOutputs_eq_outs (in1 in2 tw : Elem) (k : Nat) : bflyOutputs in1 in2 tw k = outs in1 in2 tw k := by
  simp only [bflyOutputs, bflyLegal_iff]
  rfl

theorem bflyDraws_eq_outDraws (in1 tw : Elem) : bflyDraws in1 tw = outDraws in1 tw := by
  simp only [bflyDraws, bflyLegal_iff]
  rfl

/-- Both writes of a butterfly are the memory function of R186, with the values it draws counted. -/
theorem bflyBothWritten_eq (s : State) :
    bflyBothWritten s =
      { s with
        mem := (bflyMem s.lat (s.mem, s.draws) s.o).1
        draws := (bflyMem s.lat (s.mem, s.draws) s.o).2 } := by
  simp only [bflyBothWritten, bflyOneWritten, bflyResults, bflyTaken, bflyOutputs_eq_outs, bflyDraws_eq_outDraws,
    bflyMem]
  simp only [storeElem, takeDraws, bflyInputs]

theorem nttStep_completes {s : State} (h : bflyNext s) (hc : allComplete s.platform (accesses s)) :
    nttStep s =
      { s with
        mem := (bflyMem s.lat (s.mem, s.draws) s.o).1
        draws := (bflyMem s.lat (s.mem, s.draws) s.o).2
        bflyCount := s.bflyCount + 1
        o := advance s.o s.lat.dist.toNat } := by
  obtain ⟨-, hh, ho⟩ := h
  simp only [allComplete, accesses, List.forall_mem_cons] at hc
  obtain ⟨h1, h2, h3, h4, h5, -⟩ := hc
  rw [nttStep_butterfly hh ho, bflyStep_completes h1 h2 h3 h4 h5, bflyBothWritten_eq]
  simp only [bflyDone]

/-! ### The completion step (R192, R85) -/

theorem nttFinish_of_not_raced {s : State} (h : s.raced = false) :
    nttFinish s = { s with err := 0, done := true, fsm := .idle } := by
  rw [nttFinish, settleRace_of_not_raced h]
  rfl

theorem scramble_eq_freeDests (l : NttParams) (os : List Nat) (m : Memory) (k : Nat) :
    scramble l os m k = freeDests l os (m, k) := by
  induction os generalizing m k with
  | nil => rfl
  | cons o os ih => rw [scramble, ih, freeDests, freeDests, List.foldl_cons]

theorem nttFinish_of_raced {s : State} (h : s.raced = true) :
    nttFinish s =
      { s with
        err := 0, done := true, fsm := .idle, raced := false
        mem := (freeDests s.lat (offsets s.lat s.n) (s.mem, s.draws)).1
        draws := (freeDests s.lat (offsets s.lat s.n) (s.mem, s.draws)).2 } := by
  simp [nttFinish, settleRace, h, finishCommand, flagsFinish, scramble_eq_freeDests]

/-- Every byte of the write footprint of a layer that ends raced is a free value drawn there (R85). -/
theorem freeDests_read_inside {s : State} (hm : s.mem.wf = true) {b : Word}
    (hb : inWriteFootprint s.lat s.n b = true) :
    freeByte (freeDests s.lat (offsets s.lat s.n) (s.mem, s.draws)).1 s.draws
      (freeDests s.lat (offsets s.lat s.n) (s.mem, s.draws)).2 b := by
  simpa [settleRace, markRaced, scramble_eq_freeDests] using settleRace_read_inside hm hb

/-! ### An empty region (R194) -/

theorem loopLength_of_le {l : NttParams} (h : l.srcEnd ≤ l.src) : loopLength l = 0 :=
  if_neg (BitVec.not_lt.mpr h)

theorem touchesNotMemory_of_empty (P : Platform) (l : NttParams) : touchesNotMemory P l 0 = false := by
  simp [touchesNotMemory, offsets, walk]

/-! ### What NTT_LAYER leaves unchanged (R170, R190) -/

/-- NTT_LAYER's event: its acceptance, its engine step, or an overrun (R234, R175, R236). -/
theorem exec_nttLayer_cases {s t : State} (h : exec .nttLayer s = .next t) :
    (s.fsm = .idle ∧ t = acceptNtt s) ∨ (s.fsm = .nttBusy ∧ t = nttStep s) ∨
      (s.fsm = .mulBusy ∧ t = flagsOverrun s) := by
  cases hf : s.fsm with
  | idle =>
    rw [exec_nttLayer_idle hf] at h
    cases h
    exact .inl ⟨rfl, rfl⟩
  | nttBusy =>
    rw [exec_nttLayer_busy hf] at h
    cases h
    exact .inr (.inl ⟨rfl, rfl⟩)
  | mulBusy =>
    rw [exec_nttLayer_other hf] at h
    cases h
    exact .inr (.inr ⟨rfl, rfl⟩)

/-- The registers and lists that no event of NTT_LAYER changes. -/
def SameHostSide (s t : State) : Prop :=
  t.ntt = s.ntt ∧ t.x = s.x ∧ t.y = s.y ∧ t.res = s.res ∧ t.irqEn = s.irqEn ∧ t.lx = s.lx ∧ t.ly = s.ly ∧
    t.pending = s.pending ∧ t.reply = s.reply ∧ t.platform = s.platform ∧ t.inputs = s.inputs

theorem LayerStep.sameHostSide {s t : State} (h : LayerStep s t) : SameHostSide s t := by
  cases h <;> exact ⟨rfl, rfl, rfl, rfl, rfl, rfl, rfl, rfl, rfl, rfl, rfl⟩

theorem LayerStep.ovr {s t : State} (h : LayerStep s t) : t.ovr = s.ovr := by cases h <;> rfl

/-- While the layer goes on its step leaves DONE, ERR, FAULT_ADDR and the race mark. -/
theorem LayerStep.of_busy {s t : State} (h : LayerStep s t) (ht : t.fsm = .nttBusy) :
    t.done = s.done ∧ t.err = s.err ∧ t.faultAddr = s.faultAddr ∧ t.raced = s.raced := by
  cases h with
  | wait hm | butterfly hm => exact ⟨rfl, rfl, rfl, rfl⟩
  | abort hm | finish hm => simp at ht

/-- The step that ends a layer leaves BFLY_COUNT, the offset and the wait mark. -/
theorem LayerStep.of_idle {s t : State} (h : LayerStep s t) (hf : s.fsm = .nttBusy) (ht : t.fsm = .idle) :
    t.bflyCount = s.bflyCount ∧ t.o = s.o ∧ t.hung = s.hung := by
  cases h with
  | wait hm | butterfly hm => simp [hf] at ht
  | abort hm | finish hm => exact ⟨rfl, rfl, rfl⟩

/-! ### The bytes an engine step leaves unchanged -/

theorem settleRace_read_kept (s : State) (b : Word) (h : s.raced = true → inWriteFootprint s.lat s.n b = false) :
    (settleRace s).mem.read b.toNat = s.mem.read b.toNat := by
  cases hr : s.raced with
  | false => rw [settleRace_of_not_raced hr]
  | true => exact settleRace_read_outside s b (h hr)

theorem bflyOneWritten_read_outside (s : State) (b : Word) (h1 : inElem (out1Addr s.lat s.o) b = false) :
    (bflyOneWritten s).mem.read b.toNat = s.mem.read b.toNat := by
  rw [bflyOneWritten_mem, Memory.read_setElem_outside _ _ _ _ h1]

/-- A butterfly changes bytes of its two destinations and, where it ends a raced layer, of its write footprint. -/
theorem bflyStep_read_outside (s : State) (b : Word) (h1 : inElem (out1Addr s.lat s.o) b = false)
    (h2 : inElem (out2Addr s.lat s.o) b = false)
    (hw : s.raced = true → (bflyStep s).fsm = .idle → inWriteFootprint s.lat s.n b = false) :
    (bflyStep s).mem.read b.toNat = s.mem.read b.toNat := by
  have hone := bflyOneWritten_read_outside s b h1
  rcases bflyStep_cases s with h | ⟨a, h⟩ | h | h | h | h | h <;> rw [h] at hw ⊢
  · rw [bflyDone_mem, bflyBothWritten_mem, Memory.read_setElem_outside _ _ _ _ h2,
      Memory.read_setElem_outside _ _ _ _ h1]
  · rw [raiseBusError_mem, settleRace_read_kept s b fun hr => hw hr (by simp)]
  · rw [raiseBusError_mem, settleRace_read_kept _ b (by simpa using hw), failedAccess_read_outside _ _ _ _ h1,
      takeDraws_mem]
  · rw [raiseBusError_mem, settleRace_read_kept _ b (by simpa using hw), failedAccess_read_outside _ _ _ _ h2, hone]
  · rw [hang_mem]
  · rw [hang_mem, takeDraws_mem]
  · rw [hang_mem, hone]

theorem nttStep_read_outside (s : State) (b : Word)
    (hd : s.o < s.n.toNat → inElem (out1Addr s.lat s.o) b = false ∧ inElem (out2Addr s.lat s.o) b = false)
    (hw : s.raced = true → (nttStep s).fsm = .idle → inWriteFootprint s.lat s.n b = false) :
    (nttStep s).mem.read b.toNat = s.mem.read b.toNat := by
  cases hh : s.hung with
  | true => rw [nttStep_hung hh]
  | false =>
    by_cases ho : s.o < s.n.toNat
    · rw [nttStep_butterfly hh ho] at hw ⊢
      exact bflyStep_read_outside s b (hd ho).1 (hd ho).2 hw
    · rw [nttStep_finish hh ho] at hw ⊢
      exact settleRace_read_kept s b fun hr => hw hr rfl

/-- The completion step of a layer not raced, and a wait, leave memory as it is. -/
theorem nttStep_mem_of_past_end {s : State} (ho : s.n.toNat ≤ s.o) (hr : s.raced = false) :
    (nttStep s).mem = s.mem := by
  cases hh : s.hung with
  | true => rw [nttStep_hung hh]
  | false => rw [nttStep_finish hh (Nat.not_lt.mpr ho), nttFinish_of_not_raced hr]

/-! ### The course of an engine step does not depend on data (R190, R303) -/

/-- `u` is `s` but for data memory and the count of free values. -/
def SameControl (s u : State) : Prop := ∃ m d, u = { s with mem := m, draws := d }

theorem SameControl.takeDraws {s u : State} (h : SameControl s u) (j k : Nat) :
    SameControl (takeDraws j s) (takeDraws k u) := by
  obtain ⟨m, d, rfl⟩ := h
  exact ⟨m, d + k, rfl⟩

theorem SameControl.storeElem {s u : State} (h : SameControl s u) (a : Word) (v w : Elem) :
    SameControl (storeElem a v s) (storeElem a w u) := by
  obtain ⟨m, d, rfl⟩ := h
  exact ⟨m.setElem a w, d, rfl⟩

theorem SameControl.bflyDone {s u : State} (h : SameControl s u) : SameControl (bflyDone s) (bflyDone u) := by
  obtain ⟨m, d, rfl⟩ := h
  exact ⟨m, d, rfl⟩

theorem SameControl.hang {s u : State} (h : SameControl s u) : SameControl (hang s) (hang u) := by
  obtain ⟨m, d, rfl⟩ := h
  exact ⟨m, d, rfl⟩

theorem SameControl.failedAccess {s u : State} (h : SameControl s u) (kind : AccessKind) (a : Word) :
    SameControl (failedAccess kind a s) (failedAccess kind a u) := by
  obtain ⟨m, d, rfl⟩ := h
  cases kind with
  | read => exact ⟨m, d, rfl⟩
  | write => exact ⟨_, d + 1, rfl⟩

theorem SameControl.settleRace {s u : State} (h : SameControl s u) : SameControl (settleRace s) (settleRace u) := by
  obtain ⟨m, d, rfl⟩ := h
  rw [settleRace_eq s, settleRace_eq { s with mem := m, draws := d }]
  exact ⟨_, _, rfl⟩

theorem SameControl.raiseBusError {s u : State} (h : SameControl s u) (a : Word) :
    SameControl (raiseBusError a s) (raiseBusError a u) := by
  obtain ⟨m, d, hu⟩ := h.settleRace
  rw [Machine.raiseBusError, Machine.raiseBusError, hu]
  exact ⟨m, d, rfl⟩

theorem SameControl.nttFinish {s u : State} (h : SameControl s u) : SameControl (nttFinish s) (nttFinish u) := by
  obtain ⟨m, d, hu⟩ := h.settleRace
  rw [Machine.nttFinish, Machine.nttFinish, hu]
  exact ⟨m, d, rfl⟩

/-- The platform answers an access by its kind and address alone. -/
theorem SameControl.elemAccess {s u go go' : State} (h : SameControl s u) (hgo : SameControl go go')
    (kind : AccessKind) (a : Word) : SameControl (elemAccess kind a s go) (elemAccess kind a u go') := by
  have hplat : u.platform = s.platform := by
    obtain ⟨m, d, rfl⟩ := h
    rfl
  cases hr : s.platform.response kind a with
  | completes =>
    rw [elemAccess_completes _ hr, elemAccess_completes _ (hplat ▸ hr)]
    exact hgo
  | error =>
    rw [elemAccess_error _ hr, elemAccess_error _ (hplat ▸ hr)]
    exact (h.failedAccess kind a).raiseBusError a
  | never =>
    rw [elemAccess_never _ hr, elemAccess_never _ (hplat ▸ hr)]
    exact h.hang

theorem SameControl.bflyStep {s u : State} (h : SameControl s u) : SameControl (bflyStep s) (bflyStep u) := by
  have hplace : u.lat = s.lat ∧ u.o = s.o := by
    obtain ⟨m, d, rfl⟩ := h
    exact ⟨rfl, rfl⟩
  obtain ⟨hlat, ho⟩ := hplace
  have hone : SameControl (bflyOneWritten s) (bflyOneWritten u) := by
    rw [bflyOneWritten, bflyOneWritten, hlat, ho]
    exact (h.storeElem _ _ _).takeDraws _ _
  have hboth : SameControl (bflyBothWritten s) (bflyBothWritten u) := by
    rw [bflyBothWritten, bflyBothWritten, hlat, ho]
    exact hone.storeElem _ _ _
  rw [Machine.bflyStep, Machine.bflyStep, hlat, ho]
  exact h.elemAccess (h.elemAccess (h.elemAccess ((h.takeDraws _ _).elemAccess (hone.elemAccess hboth.bflyDone
    _ _) _ _) _ _) _ _) _ _

theorem SameControl.nttStep {s u : State} (h : SameControl s u) : SameControl (nttStep s) (nttStep u) := by
  have hplace : u.hung = s.hung ∧ u.o = s.o ∧ u.n = s.n := by
    obtain ⟨m, d, rfl⟩ := h
    exact ⟨rfl, rfl, rfl⟩
  obtain ⟨hh, ho, hn⟩ := hplace
  rw [Machine.nttStep, Machine.nttStep, hh, ho, hn]
  split
  · exact h
  · split
    · exact h.bflyStep
    · exact h.nttFinish

end Sys2Proof.Machine

/-- Settles O40: the five accesses complete, so the step is a whole butterfly, which is the memory function of R186. -/
theorem butterflyCompletes : Obligations.ButterflyCompletes := by
  unfold Obligations.ButterflyCompletes
  open Sys2Proof.Machine Sys2Proof.Statements in
  intro s h a2 a1 tw d1 d2 out hc
  rw [exec_nttLayer_busy h.1, nttStep_completes h hc]
  simp only [bflyMem, advance, in1Addr, in2Addr, twAddr, out1Addr, out2Addr, a2, a1, tw, d1, d2, out]

/-- Settles O41: the two ends of a layer, and the free bytes a raced one leaves. -/
theorem layerFinishes : Obligations.LayerFinishes := by
  unfold Obligations.LayerFinishes
  open Sys2Proof.Machine in
  rintro s ⟨hf, hh, ho⟩
  rw [exec_nttLayer_busy hf, nttStep_finish hh (Nat.not_lt.mpr ho)]
  exact ⟨fun hr => by rw [nttFinish_of_not_raced hr], fun hr => by rw [nttFinish_of_raced hr],
    fun _ hm b hb => freeDests_read_inside hm hb⟩

/-- Settles O44: an empty region has length 0 and no footprint, so the first engine step is the completion step. -/
theorem emptyLayer : Obligations.EmptyLayer := by
  unfold Obligations.EmptyLayer
  open Sys2Proof.Machine in
  intro s hf hle
  have hn : (acceptNtt s).n = 0 := loopLength_of_le hle
  have hr : (acceptNtt s).raced = false := by
    rw [acceptNtt_raced, loopLength_of_le hle, touchesNotMemory_of_empty]
  have hstep : nttStep (acceptNtt s) = { acceptNtt s with err := 0, done := true, fsm := .idle } := by
    rw [nttStep_finish rfl (by rw [hn]; simp), nttFinish_of_not_raced hr]
  exact ⟨acceptNtt s, _, exec_nttLayer_idle hf, hn, rfl, (exec_nttLayer_busy rfl).trans (congrArg _ hstep), rfl, rfl,
    rfl, rfl, rfl⟩

/-- Settles O45: the acceptance, the engine step with its bytes, and the overrun. -/
theorem nttLayerFrame : Obligations.NttLayerFrame := by
  unfold Obligations.NttLayerFrame
  open Sys2Proof.Machine in
  intro s t h
  rcases exec_nttLayer_cases h with ⟨hf, rfl⟩ | ⟨hf, rfl⟩ | ⟨hf, rfl⟩
  · exact ⟨by simp, fun _ => rfl, by simp [hf], fun _ => ⟨rfl, rfl⟩, by simp [hf]⟩
  · have hstep := nttStep_layerStep s
    obtain ⟨hlat, hn, -, -⟩ := hstep.frame hf
    exact ⟨hstep.sameHostSide, fun _ => hstep.ovr, by simp [hf], by simp [hf], fun _ =>
      ⟨hlat, hn, hstep.of_busy, hstep.of_idle hf, nttStep_mem_of_past_end, nttStep_read_outside s⟩⟩
  · exact ⟨by simp, fun hne => absurd hf hne, fun _ => rfl, by simp [hf], by simp [hf]⟩

/-- Settles O46: two states alike but for memory and draws stay so in each of NTT_LAYER's events. -/
theorem stepsIndependentOfData : Obligations.StepsIndependentOfData := by
  unfold Obligations.StepsIndependentOfData
  open Sys2Proof.Machine in
  intro s t m d h
  have hsame : SameControl s { s with mem := m, draws := d } := ⟨m, d, rfl⟩
  rcases exec_nttLayer_cases h with ⟨hf, rfl⟩ | ⟨hf, rfl⟩ | ⟨hf, rfl⟩
  · exact ⟨m, d, exec_nttLayer_idle (s := { s with mem := m, draws := d }) hf⟩
  · obtain ⟨m', d', hstep⟩ := hsame.nttStep
    exact ⟨m', d', (exec_nttLayer_busy (s := { s with mem := m, draws := d }) hf).trans (congrArg _ hstep)⟩
  · exact ⟨m, d, exec_nttLayer_other (s := { s with mem := m, draws := d }) hf⟩
end

section
/-! A layer run to its end (R170, R193): with no event placed each step is the engine's, and either every access is
answered, or every access completes. -/

namespace Sys2Proof.Machine

open Sys2Proof.Safety (Inv Inv.layerStep add_32_le_advance)
open Sys2Proof.Statements

/-! ### Steps of the engine alone -/

theorem step_layer {s : State} (hf : s.fsm = .nttBusy) (hi : s.inputs = []) : step s = .next (nttStep s) := by
  rw [step_nil hi, backgroundStep, if_pos (busy_of_runs (i := .nttLayer) hf),
    engineStep_of_runs (i := .nttLayer) hf, exec_nttLayer_busy hf]

/-- A run of the layer takes its engine steps one by one. -/
theorem run_layer_succ {s : State} (hf : s.fsm = .nttBusy) (hi : s.inputs = []) (k : Nat) :
    Host.Core.run core (k + 1) s = Host.Core.run core k (nttStep s) := by
  simp only [Host.Core.run, show core.step s = .next (nttStep s) from step_layer hf hi]

/-! ### Every access is answered (R193, R241) -/

theorem response_ne_never {P : Platform} (h : P.silent = []) (kind : AccessKind) (a : Word) :
    P.response kind a ≠ .never := by
  have hs : P.silentElem kind a = false := by simp [Platform.silentElem, h]
  rw [Platform.response, if_neg (by simp [hs])]
  split <;> exact nofun

/-- An access that is answered does not make the engine wait. -/
theorem elemAccess_not_hung {kind : AccessKind} {a : Word} {s go : State} (hP : s.platform.silent = [])
    (hs : s.hung = false) (hgo : go.hung = false) : (elemAccess kind a s go).hung = false := by
  cases hr : s.platform.response kind a with
  | completes => rw [elemAccess_completes _ hr, hgo]
  | error => rw [elemAccess_error _ hr, raiseBusError_hung, failedAccess_hung, hs]
  | never => exact absurd hr (response_ne_never hP kind a)

theorem bflyStep_not_hung {s : State} (hP : s.platform.silent = []) (hs : s.hung = false) :
    (bflyStep s).hung = false :=
  elemAccess_not_hung hP hs <| elemAccess_not_hung hP hs <| elemAccess_not_hung hP hs <|
    elemAccess_not_hung (by simpa using hP) (by simpa using hs) <|
    elemAccess_not_hung (by simpa using hP) (by simpa using hs) (by simpa using hs)

theorem nttStep_not_hung {s : State} (hP : s.platform.silent = []) (hs : s.hung = false) :
    (nttStep s).hung = false := by
  by_cases ho : s.o < s.n.toNat
  · rw [nttStep_butterfly hs ho]
    exact bflyStep_not_hung hP hs
  · rw [nttStep_finish hs ho, nttFinish, finishCommand_hung, settleRace_hung, hs]

/-- A layer runs by itself, and memory answers each of its accesses. -/
structure RunsAnswered (s : State) : Prop where
  busy : s.fsm = .nttBusy
  answered : s.hung = false
  alone : s.inputs = []
  noSilence : s.platform.silent = []

/-- The command has ended with DONE = 1, ERR = 0 or 2 and at most ⌈n/32⌉ butterflies. -/
def EndedWithin (n : Word) (t : State) : Prop :=
  t.fsm = .idle ∧ t.done = true ∧ (t.err = 0 ∨ t.err = 2) ∧ t.bflyCount.toNat ≤ (n.toNat + 31) / 32

/-- An answered step completes a butterfly, and the layer goes on, or ends the command. -/
theorem RunsAnswered.step {s : State} (h : RunsAnswered s) (hs : Inv s) :
    (RunsAnswered (nttStep s) ∧ s.o < s.n.toNat ∧ s.o + 32 ≤ (nttStep s).o ∧ (nttStep s).n = s.n) ∨
      EndedWithin s.n (nttStep s) := by
  have hh := nttStep_not_hung h.noSilence h.answered
  obtain ⟨hplat, hi⟩ := nttStep_platform_inputs s
  obtain ⟨-, -, -, -, hcount⟩ := hs.layer h.busy
  have hcount : s.bflyCount.toNat ≤ (s.n.toNat + 31) / 32 := by omega
  have hstep := nttStep_layerStep s
  generalize nttStep s = t at hh hplat hi hstep ⊢
  cases hstep with
  | wait => cases hh
  | butterfly _ ho =>
    exact .inl ⟨⟨h.busy, hh, hi.trans h.alone, hplat ▸ h.noSilence⟩, ho, add_32_le_advance _ _, rfl⟩
  | abort => exact .inr ⟨rfl, rfl, .inr rfl, hcount⟩
  | finish => exact .inr ⟨rfl, rfl, .inl rfl, hcount⟩

/-- With room for j butterflies at most the layer ends within j + 1 steps. -/
theorem RunsAnswered.ends {s : State} (h : RunsAnswered s) (hs : Inv s) (j : Nat) (hj : s.n.toNat ≤ s.o + 32 * j) :
    ∃ k ≤ j + 1, ∃ t, Host.Core.run core k s = .next t ∧ EndedWithin s.n t := by
  induction j generalizing s with
  | zero =>
    rcases h.step hs with ⟨-, ho, -⟩ | hend
    · omega
    · exact ⟨1, le_rfl, nttStep s, run_layer_succ h.busy h.alone 0, hend⟩
  | succ j ih =>
    rcases h.step hs with ⟨hnext, -, hle, hn⟩ | hend
    · have hs' : Inv (nttStep s) := hs.layerStep h.busy (nttStep_layerStep s)
      obtain ⟨k, hk, t, hrun, hend⟩ := ih hnext hs' (by rw [hn]; omega)
      exact ⟨k + 1, by omega, t, (run_layer_succ h.busy h.alone k).trans hrun, hn ▸ hend⟩
    · exact ⟨1, by omega, nttStep s, run_layer_succ h.busy h.alone 0, hend⟩

/-! ### Every access completes (R170) -/

theorem response_of_openPlatform {P : Platform} (h : openPlatform P) (kind : AccessKind) (a : Word) :
    P.response kind a = .completes := by
  obtain ⟨hrefused, hsilent, -, hwindow⟩ := h
  simp [Platform.response, Platform.silentElem, Platform.admitsElem, Platform.admitsByte, Platform.memAdmit,
    Platform.inWindow, hrefused, hsilent, hwindow]

theorem touchesNotMemory_of_openPlatform {P : Platform} (h : openPlatform P) (l : NttParams) (n : Word) :
    touchesNotMemory P l n = false := by
  obtain ⟨-, -, hmem, -⟩ := h
  simp [touchesNotMemory, hmem]

/-- A layer that is not raced runs by itself on a platform that completes every access. -/
structure RunsOpen (s : State) : Prop where
  busy : s.fsm = .nttBusy
  answered : s.hung = false
  notRaced : s.raced = false
  alone : s.inputs = []
  platform : openPlatform s.platform

/-- The state after the butterflies at the offsets `os` of the running layer, the next offset being o. -/
def afterButterflies (s : State) (os : List Nat) (o : Nat) : State :=
  { s with
    mem := (os.foldl (bflyMem s.lat) (s.mem, s.draws)).1
    draws := (os.foldl (bflyMem s.lat) (s.mem, s.draws)).2
    o := o
    bflyCount := s.bflyCount + BitVec.ofNat 64 os.length }

@[simp] theorem afterButterflies_lat (s : State) (os : List Nat) (o : Nat) :
    (afterButterflies s os o).lat = s.lat := by simp only [afterButterflies]
@[simp] theorem afterButterflies_n (s : State) (os : List Nat) (o : Nat) :
    (afterButterflies s os o).n = s.n := by simp only [afterButterflies]
@[simp] theorem afterButterflies_o (s : State) (os : List Nat) (o : Nat) :
    (afterButterflies s os o).o = o := by simp only [afterButterflies]

theorem afterButterflies_nil (s : State) : afterButterflies s [] s.o = s := by
  simp [afterButterflies]

/-- One butterfly more at the front of the list is one engine step more at the start. -/
theorem afterButterflies_cons (s : State) (o : Nat) (os : List Nat) (o' o'' : Nat) :
    afterButterflies (afterButterflies s [o] o'') os o' = afterButterflies s (o :: os) o' := by
  simp only [afterButterflies, List.foldl_cons, List.foldl_nil, List.length_cons, List.length_nil,
    BitVec.add_assoc, ← BitVec.ofNat_add, Nat.zero_add, Nat.add_comm os.length 1]

theorem RunsOpen.nttStep_butterfly {s : State} (h : RunsOpen s) (ho : s.o < s.n.toNat) :
    nttStep s = afterButterflies s [s.o] (advance s.o s.lat.dist.toNat) :=
  nttStep_completes ⟨h.busy, h.answered, ho⟩ fun x _ => response_of_openPlatform h.platform x.1 x.2

theorem RunsOpen.afterButterflies {s : State} (h : RunsOpen s) (os : List Nat) (o : Nat) :
    RunsOpen (afterButterflies s os o) :=
  ⟨h.busy, h.answered, h.notRaced, h.alone, h.platform⟩

theorem RunsOpen.run_finish {s : State} (h : RunsOpen s) (ho : ¬s.o < s.n.toNat) :
    Host.Core.run core 1 s = .next (finishCommand s) := by
  rw [run_layer_succ h.busy h.alone, nttStep_finish h.answered ho, nttFinish, settleRace_of_not_raced h.notRaced]
  rfl

/-- The rest of a layer is the butterflies at the rest of its walk, one after another, and the completion step. -/
theorem RunsOpen.run_walk {s : State} (h : RunsOpen s) (fuel : Nat) (hf : s.n.toNat ≤ s.o + 32 * fuel) :
    ∃ o, s.n.toNat ≤ o ∧
      Host.Core.run core ((walk s.lat.dist.toNat s.n.toNat fuel s.o).length + 1) s =
        .next (finishCommand (Machine.afterButterflies s (walk s.lat.dist.toNat s.n.toNat fuel s.o) o)) := by
  induction fuel generalizing s with
  | zero => exact ⟨s.o, by omega, by rw [walk, afterButterflies_nil]; exact h.run_finish (by omega)⟩
  | succ fuel ih =>
    unfold walk
    split
    · rename_i ho
      have hle := add_32_le_advance s.o s.lat.dist.toNat
      obtain ⟨o, hn, hrun⟩ := ih (h.afterButterflies [s.o] (advance s.o s.lat.dist.toNat))
        (by rw [afterButterflies_n, afterButterflies_o]; omega)
      rw [afterButterflies_n] at hn
      rw [afterButterflies_lat, afterButterflies_n, afterButterflies_o, afterButterflies_cons] at hrun
      refine ⟨o, hn, ?_⟩
      rw [List.length_cons, run_layer_succ h.busy h.alone, h.nttStep_butterfly ho, hrun]
    · exact ⟨s.o, by omega, by rw [afterButterflies_nil]; exact h.run_finish ‹_›⟩

/-- What the butterflies of a whole command leave, from its acceptance on (R234, R192). -/
theorem finishCommand_afterButterflies_acceptNtt (s : State) (os : List Nat) (o : Nat) :
    finishCommand (afterButterflies (acceptNtt s) os o) =
      { acceptNtt s with
        mem := (os.foldl (bflyMem s.ntt) (s.mem, s.draws)).1
        draws := (os.foldl (bflyMem s.ntt) (s.mem, s.draws)).2
        o := o, bflyCount := BitVec.ofNat 64 os.length, err := 0, done := true, fsm := .idle } := by
  simp [finishCommand, flagsFinish, afterButterflies]

end Sys2Proof.Machine

/-- Settles O49: each step that does not end the command brings the offset 32 further. -/
theorem layerTerminates : Obligations.LayerTerminates := by
  unfold Obligations.LayerTerminates
  open Sys2Proof.Machine in
  intro s hs hf hh hi hP
  obtain ⟨k, hk, t, hrun, hidle, hdone, herr, hcount⟩ :=
    RunsAnswered.ends ⟨hf, hh, hi, hP⟩ hs ((s.n.toNat + 31) / 32) (by omega)
  exact ⟨k, hk, t, hrun, hidle, hdone, herr, hcount⟩

/-- Settles O50: the accepted layer runs through its whole walk. -/
theorem layerEqualsLoop : Obligations.LayerEqualsLoop := by
  unfold Obligations.LayerEqualsLoop
  open Sys2Proof.Machine in
  intro s hf hi hP
  have hopen : RunsOpen (acceptNtt s) := ⟨rfl, rfl, touchesNotMemory_of_openPlatform hP _ _, hi, hP⟩
  obtain ⟨o, ho, hrun⟩ := hopen.run_walk (((loopLength s.ntt).toNat + 31) / 32) (by simp; omega)
  refine ⟨acceptNtt s, _, exec_nttLayer_idle hf, hrun, o, ho, ?_⟩
  exact finishCommand_afterButterflies_acceptNtt s _ o
end

section
/-! Register-bus transactions: what a read of each offset returns and what a write of each does (R22, R231 to R233,
R237), and a CMD write while IDLE (R234, R235). -/

namespace Sys2Proof.Machine

open Sys2Proof.Statements

/-! ### The offsets of the register map (R22, R42) -/

/-- The offsets at which a transaction is valid are the 32 multiples of 8 below 256, in the order of the map. -/
def windowOffset (i : Nat) : BitVec 8 := BitVec.ofNat 8 (8 * i)

theorem windowOffset_mod_eight (i : Nat) : (windowOffset i).toNat % 8 = 0 := by
  rw [windowOffset, BitVec.toNat_ofNat]
  omega

/-! ### Reads (R22, R232) -/

theorem busy_eq_decide (s : State) : busy s = decide (s.fsm ≠ .idle) := by
  simp [busy, bne, beq_eq_decide]

/-- STATUS as a number: each field at its weight (R28). -/
theorem statusWord_eq_ofNat (s : State) :
    statusWord s =
      BitVec.ofNat 64 (256 * s.err.toNat + 4 * bit s.ovr + 2 * bit s.done + bit (decide (s.fsm ≠ .idle))) := by
  have hfields : ∀ (e : BitVec 4) (o d b : Bool),
      ((0 : BitVec 52) ++ e ++ (0 : BitVec 5) ++ BitVec.ofBool o ++ BitVec.ofBool d ++ BitVec.ofBool b) =
        BitVec.ofNat 64 (256 * e.toNat + 4 * bit o + 2 * bit d + bit b) := by decide
  rw [← busy_eq_decide]
  exact hfields s.err s.ovr s.done (busy s)

theorem ctrlWord_eq_ofNat (s : State) : ctrlWord s = BitVec.ofNat 64 (bit s.irqEn) := by
  have hfields : ∀ b : Bool, ((0 : BitVec 63) ++ BitVec.ofBool b) = BitVec.ofNat 64 (bit b) := by decide
  exact hfields s.irqEn

/-- The table of reads lists `readOffset` at every offset of the map; STATUS, CTRL and NTT_TWSHIFT are laid out. -/
theorem readTable_eq_map (s : State) :
    readTable s = (List.range 32).map fun i => (windowOffset i, readOffset s (windowOffset i)) := by
  rw [readTable, ← statusWord_eq_ofNat, ← ctrlWord_eq_ofNat, BitVec.ofNat_toNat]
  rfl

/-- A full 64-bit read at a multiple of 8 is valid and changes nothing but the reply (R232). -/
theorem step_read {s : State} {off : BitVec 8} {rest : List Event} (h : s.inputs = readEvent off :: rest)
    (hoff : off.toNat % 8 = 0) :
    step s = .next { s with inputs := rest, reply := .value (readOffset s off) } := by
  have hv : busValid off 8 = true := by simp [busValid, hoff]
  rw [step_cons h, readEvent, handleEvent, busTransaction, if_pos hv]
  rfl

/-! ### Writes (R233, R237) -/

/-- The table of writes lists what the bus write does at every offset of the map but the first, CMD. -/
theorem writeTable_eq_map (s : State) (v : Word) :
    (writeTable s v).map (fun r => (r.1, Host.Outcome.next r.2)) =
      (List.range' 1 31).map fun i => (windowOffset i, busWrite (windowOffset i) v s) := by
  have hshift : BitVec.ofNat 32 (v.toNat % 2 ^ 32) = v.setWidth 32 := BitVec.eq_of_toNat_eq (by simp)
  rw [writeTable, hshift]
  rfl

theorem writeReplied_eq {s : State} {e : Event} {rest : List Event} (h : s.inputs = e :: rest) :
    writeReplied s = { s with inputs := rest, reply := .written } := by
  rw [writeReplied, eventTaken, h]
  rfl

/-! ### Invalid transactions (R231) -/

theorem not_busValid {off : BitVec 8} {bytes : Nat} (h : bytes ≠ 8 ∨ off.toNat % 8 ≠ 0) :
    ¬busValid off bytes = true := by
  simp only [busValid, Bool.and_eq_true, beq_iff_eq]
  omega

/-! ### A CMD write while IDLE (R234, R235) -/

theorem cmdWrite_of_ok {s : State} {w : Word} {i : Instr} (hf : s.fsm = .idle) (hd : decode w = .ok i) :
    cmdWrite w s = exec i s := by
  rw [cmdWrite, if_neg (by simp [busy, hf]), hd]

theorem cmdWrite_of_error {s : State} {w : Word} {e : DecodeError} (hf : s.fsm = .idle)
    (hd : decode w = .error e) : cmdWrite w s = .next (refuseCommand s) := by
  rw [cmdWrite, if_neg (by simp [busy, hf]), hd]

theorem step_cmd {s : State} {w : Word} {rest : List Event} (h : s.inputs = cmdEvent w :: rest) :
    step s = cmdWrite w { s with inputs := rest, reply := .written } := by
  rw [step_write h rfl, writeReplied_eq h]
  rfl

/-- A word that decodes, written while IDLE, is the event of its command (R234). -/
theorem step_cmd_ok {s : State} {w : Word} {i : Instr} {rest : List Event} (h : s.inputs = cmdEvent w :: rest)
    (hf : s.fsm = .idle) (hd : decode w = .ok i) :
    step s = exec i { s with inputs := rest, reply := .written } :=
  (step_cmd h).trans (cmdWrite_of_ok hf hd)

end Sys2Proof.Machine

/-- Settles O10: an entry of the table is an offset of the map with what it reads as. -/
theorem registerReads : Obligations.RegisterReads := by
  unfold Obligations.RegisterReads
  open Sys2Proof.Machine in
  intro s rest r hr hi
  rw [readTable_eq_map, List.mem_map] at hr
  obtain ⟨i, -, rfl⟩ := hr
  exact step_read hi (windowOffset_mod_eight i)

/-- Settles O11: an entry of the table is an offset of the map with what the bus write there does. -/
theorem registerWrites : Obligations.RegisterWrites := by
  unfold Obligations.RegisterWrites
  open Sys2Proof.Machine in
  intro s v rest r hr hi
  have hmem := List.mem_map_of_mem (f := fun r => (r.1, Host.Outcome.next (φ := Fault) (ρ := Refusal) r.2)) hr
  rw [writeTable_eq_map, List.mem_map] at hmem
  obtain ⟨i, -, heq⟩ := hmem
  obtain ⟨hoff, hw⟩ := Prod.mk.inj heq
  rw [step_write hi (hoff ▸ windowOffset_mod_eight i), writeReplied_eq hi, ← hoff, hw]

/-- Settles O12: both kinds of transaction are checked first. -/
theorem invalidTransactionChangesNothing : Obligations.InvalidTransactionChangesNothing := by
  unfold Obligations.InvalidTransactionChangesNothing
  open Sys2Proof.Machine in
  intro s off bytes v rest hinv
  have hv := not_busValid hinv
  exact ⟨fun hi => (step_cons hi).trans (if_neg hv), fun hi => (step_cons hi).trans (if_neg hv)⟩

/-- Settles O13: the write computed; v[1] = 1 leaves DONE 0, and with DONE = 0 and v[2] = 0 nothing is left to clear. -/
theorem statusWriteOneToClear : Obligations.StatusWriteOneToClear := by
  unfold Obligations.StatusWriteOneToClear
  open Sys2Proof.Machine in
  intro s v rest hi
  refine ⟨_, step_status_write hi, by rw [writeReplied_eq hi]; rfl, fun h1 => ?_, fun _ hd h2 => ?_⟩
  · simp [irq, flagsStatusWrite, h1]
  · rw [writeReplied_eq hi]
    simp only [flagsStatusWrite, hd, h2, Bool.false_and, Bool.not_false, Bool.and_true]

/-- Settles O4: the write is valid, at CMD's offset, and IDLE is not busy. -/
theorem stepRunsDecodedCommand : Obligations.StepRunsDecodedCommand := by
  unfold Obligations.StepRunsDecodedCommand
  exact fun _ _ _ _ hi hf hd => Sys2Proof.Machine.step_cmd_ok hi hf hd

/-- Settles O6: 1 and 2 are the words of the two commands, whose acceptances are these states. -/
theorem acceptanceLatchesOperands : Obligations.AcceptanceLatchesOperands := by
  unfold Obligations.AcceptanceLatchesOperands
  open Sys2Proof.Machine in
  refine fun s rest hf => ⟨fun hi => ?_, fun hi => ?_⟩
  · rw [step_cmd_ok hi hf (decode_encode .mul)]
    exact exec_mul_idle hf
  · rw [step_cmd_ok hi hf (decode_encode .nttLayer)]
    exact exec_nttLayer_idle hf

/-- Settles O7: the acceptance of each command, field by field. -/
theorem idleCommandStarts : Obligations.IdleCommandStarts := by
  unfold Obligations.IdleCommandStarts
  open Sys2Proof.Machine in
  intro i s hf
  cases i with
  | mul => exact ⟨acceptMul s, exec_mul_idle hf, by simp [Sys2Proof.Statements.runs]⟩
  | nttLayer => exact ⟨acceptNtt s, exec_nttLayer_idle hf, by simp [Sys2Proof.Statements.runs]⟩

/-- Settles O8: the refusal is this state, whose DONE is 1. -/
theorem illegalWordRefused : Obligations.IllegalWordRefused := by
  unfold Obligations.IllegalWordRefused
  open Sys2Proof.Machine in
  exact fun s _ _ _ hi hf hd => ⟨(step_cmd hi).trans (cmdWrite_of_error hf hd), Bool.true_and s.irqEn⟩
end

section
/-! The registers a running command does not read: its engine step is the same, but for them, whatever the host writes
to OVR and to the operand registers (R44, R45, R236, R238). -/

namespace Sys2Proof.Machine

open Sys2Proof.Statements (runs operandOffsets)

/-! ### A change of OVR and of the operand registers -/

/-- A change of the registers that no engine step reads or writes: OVR, the NTT registers, X and Y. -/
def changeUnread (ov : Bool → Bool) (f : NttParams → NttParams) (g h : Limbs → Limbs) (s : State) : State :=
  { s with ovr := ov s.ovr, ntt := f s.ntt, x := g s.x, y := h s.y }

section
variable (ov : Bool → Bool) (f : NttParams → NttParams) (g h : Limbs → Limbs) (s : State)

theorem settleRace_changeUnread :
    settleRace (changeUnread ov f g h s) = changeUnread ov f g h (settleRace s) := by
  unfold settleRace
  rw [apply_ite (changeUnread ov f g h)]
  rfl

theorem raiseBusError_changeUnread (a : Word) :
    raiseBusError a (changeUnread ov f g h s) = changeUnread ov f g h (raiseBusError a s) := by
  rw [raiseBusError, settleRace_changeUnread]
  rfl

theorem failedAccess_changeUnread (kind : AccessKind) (a : Word) :
    failedAccess kind a (changeUnread ov f g h s) = changeUnread ov f g h (failedAccess kind a s) := by
  cases kind <;> rfl

/-- The three cases of an element access, none of which asks for the changed registers. -/
theorem elemAccess_changeUnread (kind : AccessKind) (a : Word) (go : State) :
    elemAccess kind a (changeUnread ov f g h s) (changeUnread ov f g h go) =
      changeUnread ov f g h (elemAccess kind a s go) := by
  have hplat : (changeUnread ov f g h s).platform = s.platform := rfl
  cases hr : s.platform.response kind a with
  | completes => rw [elemAccess_completes _ hr, elemAccess_completes _ (hplat ▸ hr)]
  | error =>
    rw [elemAccess_error _ hr, elemAccess_error _ (hplat ▸ hr), failedAccess_changeUnread,
      raiseBusError_changeUnread]
  | never =>
    rw [elemAccess_never _ hr, elemAccess_never _ (hplat ▸ hr)]
    rfl

theorem changeUnread_lat : (changeUnread ov f g h s).lat = s.lat := rfl

theorem changeUnread_o : (changeUnread ov f g h s).o = s.o := rfl

theorem storeElem_changeUnread (a : Word) (v : Elem) :
    storeElem a v (changeUnread ov f g h s) = changeUnread ov f g h (storeElem a v s) := by
  simp only [storeElem, changeUnread]

theorem takeDraws_changeUnread (k : Nat) :
    takeDraws k (changeUnread ov f g h s) = changeUnread ov f g h (takeDraws k s) := rfl

theorem bflyDone_changeUnread :
    bflyDone (changeUnread ov f g h s) = changeUnread ov f g h (bflyDone s) := rfl

theorem bflyTaken_changeUnread : bflyTaken (changeUnread ov f g h s) = bflyTaken s := rfl

theorem bflyResults_changeUnread : bflyResults (changeUnread ov f g h s) = bflyResults s := rfl

theorem bflyOneWritten_changeUnread :
    bflyOneWritten (changeUnread ov f g h s) = changeUnread ov f g h (bflyOneWritten s) := by
  rw [bflyOneWritten, bflyTaken_changeUnread, bflyResults_changeUnread, changeUnread_lat, changeUnread_o,
    storeElem_changeUnread, takeDraws_changeUnread, bflyOneWritten]

theorem bflyBothWritten_changeUnread :
    bflyBothWritten (changeUnread ov f g h s) = changeUnread ov f g h (bflyBothWritten s) := by
  rw [bflyBothWritten, bflyOneWritten_changeUnread, bflyResults_changeUnread, changeUnread_lat, changeUnread_o,
    storeElem_changeUnread, bflyBothWritten]

theorem bflyStep_changeUnread :
    bflyStep (changeUnread ov f g h s) = changeUnread ov f g h (bflyStep s) := by
  rw [bflyStep, changeUnread_lat, changeUnread_o, bflyTaken_changeUnread, bflyBothWritten_changeUnread,
    bflyDone_changeUnread, bflyOneWritten_changeUnread, takeDraws_changeUnread, bflyStep]
  simp only [elemAccess_changeUnread]

theorem nttStep_changeUnread :
    nttStep (changeUnread ov f g h s) = changeUnread ov f g h (nttStep s) := by
  cases hh : s.hung with
  | true => rw [nttStep_hung hh, nttStep_hung (s := changeUnread ov f g h s) hh]
  | false =>
    by_cases ho : s.o < s.n.toNat
    · rw [nttStep_butterfly hh ho, nttStep_butterfly (s := changeUnread ov f g h s) hh ho, bflyStep_changeUnread]
    · rw [nttStep_finish hh ho, nttStep_finish (s := changeUnread ov f g h s) hh ho, nttFinish,
        settleRace_changeUnread]
      rfl

theorem mulStep_changeUnread : mulStep (changeUnread ov f g h s) = changeUnread ov f g h (mulStep s) := rfl

end

/-- The running command's engine step is the one it would have made, but for the changed registers. -/
theorem exec_changeUnread (ov : Bool → Bool) (f : NttParams → NttParams) (g h : Limbs → Limbs) {i : Instr}
    {s t : State} (hf : s.fsm = runs i) (ht : exec i s = .next t) :
    exec i (changeUnread ov f g h s) = .next (changeUnread ov f g h t) := by
  cases i with
  | mul =>
    obtain rfl := Host.Outcome.next.inj ((exec_mul_busy hf).symm.trans ht)
    rw [exec_mul_busy (s := changeUnread ov f g h s) hf, mulStep_changeUnread]
  | nttLayer =>
    obtain rfl := Host.Outcome.next.inj ((exec_nttLayer_busy hf).symm.trans ht)
    rw [exec_nttLayer_busy (s := changeUnread ov f g h s) hf, nttStep_changeUnread]

theorem exists_runs_of_busy {s : State} (hf : s.fsm ≠ .idle) : ∃ i, s.fsm = runs i := by
  cases h : s.fsm with
  | idle => exact absurd h hf
  | mulBusy => exact ⟨.mul, rfl⟩
  | nttBusy => exact ⟨.nttLayer, rfl⟩

/-! ### Writes of the operand registers (R233, R238) -/

/-- The operand registers: the NTT registers, X and Y. -/
def Reg.isOperand : Reg → Bool
  | .cmd | .status | .ctrl | .bflyCount | .faultAddr | .res _ => false
  | _ => true

/-- The operand registers are those at the operand offsets. -/
theorem isOperand_of_regAt {off : BitVec 8} {r : Reg} (hoff : off ∈ operandOffsets) (hr : regAt off = some r) :
    r.isOperand = true :=
  have hall : ∀ off ∈ operandOffsets, ∀ r ∈ regAt off, Reg.isOperand r = true := by decide
  hall off hoff r hr

/-- A write of an operand register is a change of registers that no engine step reads. -/
theorem exists_writeReg_eq_changeUnread {r : Reg} (h : r.isOperand = true) (v : Word) :
    ∃ f g h, ∀ s, writeReg s v r = changeUnread id f g h s := by
  cases r with
  | cmd | status | ctrl | bflyCount | faultAddr | res i => cases h
  | x i => exact ⟨id, (·.set i v), id, fun _ => rfl⟩
  | y i => exact ⟨id, id, (·.set i v), fun _ => rfl⟩
  | nttSrc => exact ⟨fun l => { l with src := v }, id, id, fun _ => rfl⟩
  | nttEnd => exact ⟨fun l => { l with srcEnd := v }, id, id, fun _ => rfl⟩
  | nttDstOff => exact ⟨fun l => { l with dstOff := v }, id, id, fun _ => rfl⟩
  | nttDist => exact ⟨fun l => { l with dist := v }, id, id, fun _ => rfl⟩
  | nttTwBase => exact ⟨fun l => { l with twBase := v }, id, id, fun _ => rfl⟩
  | nttTwShift => exact ⟨fun l => { l with twShift := v.setWidth 32 }, id, id, fun _ => rfl⟩
  | nttTwMask => exact ⟨fun l => { l with twMask := v }, id, id, fun _ => rfl⟩

/-- Keeping the low 32 bits of a word is masking it. -/
theorem setWidth_setWidth_eq_and (v : Word) : (v.setWidth 32).setWidth 64 = v &&& 0xFFFFFFFF := by
  have hmask : (v &&& 0xFFFFFFFF).toNat = v.toNat % 2 ^ 32 := Nat.and_two_pow_sub_one_eq_mod v.toNat 32
  apply BitVec.eq_of_toNat_eq
  rw [hmask, BitVec.toNat_setWidth, BitVec.toNat_setWidth]
  omega

theorem Limbs.get_set (l : Limbs) (i : Fin 4) (v : Word) : (l.set i v).get i = v := by
  revert i
  exact fun | 0 | 1 | 2 | 3 => rfl

/-- Of the operand registers only NTT_TWSHIFT is narrower than a word: it keeps the low 32 bits (R37). -/
theorem readReg_writeReg_operand {r : Reg} (h : r.isOperand = true) (s : State) (v : Word) :
    readReg (writeReg s v r) r = if r = .nttTwShift then v &&& 0xFFFFFFFF else v := by
  cases r with
  | cmd | status | ctrl | bflyCount | faultAddr | res i => cases h
  | x i => exact Limbs.get_set s.x i v
  | y i => exact Limbs.get_set s.y i v
  | nttTwShift =>
    rw [if_pos rfl]
    exact setWidth_setWidth_eq_and v
  | _ => rfl

/-- NTT_TWSHIFT is the register at offset 0x68 and at no other (R22). -/
theorem eq_nttTwShift_iff {off : BitVec 8} {r : Reg} (h : regAt off = some r) : r = .nttTwShift ↔ off = 0x68 := by
  constructor
  · rintro rfl
    exact offset_of_regAt h
  · rintro rfl
    exact (Option.some.inj h).symm

end Sys2Proof.Machine

/-- Settles O9: the write is an overrun, and OVR is a register that no engine step reads. -/
theorem busyCommandWriteOnlySetsOvr : Obligations.BusyCommandWriteOnlySetsOvr := by
  unfold Obligations.BusyCommandWriteOnlySetsOvr
  open Sys2Proof.Machine in
  refine fun s w rest hi hf => ⟨by rw [step_cmd_busy hi hf, writeReplied_eq hi]; rfl, fun u hu => ?_⟩
  obtain ⟨i, hrun⟩ := exists_runs_of_busy hf
  rw [engineStep_of_runs hrun] at hu
  rw [engineStep_of_runs (s := { s with ovr := true }) hrun]
  exact exec_changeUnread (fun _ => true) id id id hrun hu

/-- Settles O15: the register reads what was written, and it is one that no engine step reads. -/
theorem operandWriteWhileBusy : Obligations.OperandWriteWhileBusy := by
  unfold Obligations.OperandWriteWhileBusy
  open Sys2Proof.Machine in
  intro i s t off v r hoff hr hf ht
  have hop := isOperand_of_regAt hoff hr
  refine ⟨by simp only [readReg_writeReg_operand hop, eq_nttTwShift_iff hr], ?_⟩
  obtain ⟨f, g, h, hw⟩ := exists_writeReg_eq_changeUnread hop v
  rw [hw, hw]
  exact exec_changeUnread id f g h hf ht
end

section
/-! An element access that never gets a response (R241): the engine waits, and the host sees no register change. -/

namespace Sys2Proof.Machine

open Sys2Proof.Statements (accesses allComplete bflyNext)

/-- Some access of the list never gets a response, and those before it complete. -/
def SilentAfterComplete (P : Platform) (l : List (AccessKind × Word)) : Prop :=
  ∃ k x, l[k]? = some x ∧ allComplete P (l.take k) ∧ P.response x.1 x.2 = .never

/-- The first access is the silent one, or it completes and the silent one is among the rest. -/
theorem SilentAfterComplete.of_cons {P : Platform} {x : AccessKind × Word} {l : List (AccessKind × Word)}
    (h : SilentAfterComplete P (x :: l)) :
    P.response x.1 x.2 = .never ∨ P.response x.1 x.2 = .completes ∧ SilentAfterComplete P l := by
  obtain ⟨k, y, hy, hc, hn⟩ := h
  cases k with
  | zero =>
    obtain rfl : x = y := by simpa using hy
    exact .inl hn
  | succ k =>
    obtain ⟨hx, hc⟩ := List.forall_mem_cons.mp hc
    exact .inr ⟨hx, k, y, hy, hc, hn⟩

theorem not_silentAfterComplete_nil (P : Platform) : ¬SilentAfterComplete P [] := by
  rintro ⟨k, x, hx, -⟩
  simp at hx

/-- `t` is `s` waiting for a response, but for data memory and the count of free values. -/
def WaitsFrom (s t : State) : Prop := ∃ m d, t = { s with mem := m, draws := d, hung := true }

/-- An access before the rest of a butterfly: it is silent and the engine waits, or the step goes on to the rest. -/
theorem WaitsFrom.elemAccess {s u go : State} {kind : AccessKind} {a : Word} {l : List (AccessKind × Word)}
    (hu : SameButData s u) (hgo : SilentAfterComplete s.platform l → WaitsFrom s go)
    (h : SilentAfterComplete s.platform ((kind, a) :: l)) : WaitsFrom s (elemAccess kind a u go) := by
  obtain ⟨m, d, -, rfl⟩ := hu
  rcases h.of_cons with hn | ⟨hc, hl⟩
  · exact ⟨m, d, elemAccess_never (s := { s with mem := m, draws := d }) go hn⟩
  · rw [elemAccess_completes (s := { s with mem := m, draws := d }) go hc]
    exact hgo hl

theorem bflyStep_waitsFrom {s : State} (h : SilentAfterComplete s.platform (accesses s)) :
    WaitsFrom s (bflyStep s) := by
  have hs := SameButData.refl s
  exact WaitsFrom.elemAccess hs (WaitsFrom.elemAccess hs (WaitsFrom.elemAccess hs
    (WaitsFrom.elemAccess (hs.takeDraws _) (WaitsFrom.elemAccess ((hs.storeElem _ _).takeDraws _)
      fun hnil => absurd hnil (not_silentAfterComplete_nil _))))) h

end Sys2Proof.Machine

/-- Settles O43: the butterfly ends at the silent access in a wait, and no register shows memory, draws or the wait. -/
theorem silentMemoryHangs : Obligations.SilentMemoryHangs := by
  unfold Obligations.SilentMemoryHangs
  open Sys2Proof.Machine in
  refine ⟨fun s k x hb hx hc hn => ?_, fun s hf hh => by rw [exec_nttLayer_busy hf, nttStep_hung hh]⟩
  obtain ⟨hf, hh, ho⟩ := hb
  obtain ⟨m, d, hwait⟩ := bflyStep_waitsFrom ⟨k, x, hx, hc, hn⟩
  rw [exec_nttLayer_busy hf, nttStep_butterfly hh ho, hwait]
  exact ⟨_, rfl, rfl, hf, rfl, fun _ => rfl⟩
end

section
/-! Every event goes on to a next state (R260, R263, R271), and what the steps of R267 and R268 leave in `irq`. -/

namespace Sys2Proof.Machine

open Sys2Proof.Statements (cmdEvent writeEvent)

/-! ### No event stops the machine (R260, R263, R271) -/

/-- A CMD write is an overrun, the event of a decoded command, or a refusal: each goes on. -/
theorem cmdWrite_next (w : Word) (s : State) : ∃ t, cmdWrite w s = .next t := by
  unfold cmdWrite
  split
  · exact ⟨_, rfl⟩
  · split
    · exact exec_next _ s
    · exact ⟨_, rfl⟩

theorem busWrite_next (off : BitVec 8) (v : Word) (s : State) : ∃ t, busWrite off v s = .next t := by
  unfold busWrite
  split
  · exact cmdWrite_next v s
  · exact ⟨_, rfl⟩
  · exact ⟨_, rfl⟩

theorem busTransaction_next (b : BusTransaction) (s : State) : ∃ t, busTransaction b s = .next t := by
  cases b with
  | write off bytes v =>
    rw [busTransaction]
    split
    · exact busWrite_next off v _
    · exact ⟨_, rfl⟩
  | read off bytes =>
    rw [busTransaction]
    split <;> exact ⟨_, rfl⟩

theorem engineStep_next (s : State) : ∃ t, engineStep s = .next t := by
  unfold engineStep
  split
  · exact ⟨s, rfl⟩
  · exact exec_next .mul s
  · exact exec_next .nttLayer s

theorem handleEvent_next (e : Event) (s : State) : ∃ t, handleEvent e s = .next t := by
  cases e with
  | bus b => exact busTransaction_next b s
  | engine => exact engineStep_next s
  | reset | hostWrite a data | hostRead a k | land i => exact ⟨_, rfl⟩

theorem backgroundStep_next (s : State) : ∃ t, backgroundStep s = .next t := by
  unfold backgroundStep
  split
  · exact engineStep_next s
  · exact ⟨_, rfl⟩

theorem step_next (s : State) : ∃ t, step s = .next t := by
  cases hi : s.inputs with
  | nil =>
    rw [step_nil hi]
    exact backgroundStep_next s
  | cons e rest =>
    rw [step_cons hi]
    exact handleEvent_next e _

/-! ### The steps that raise or lower `irq` (R267, R268) -/

theorem irq_of_not_done {s : State} (h : s.done = false) : irq s = false := by
  simp [irq, h]

theorem irq_of_done {s : State} (h : s.done = true) : irq s = s.irqEn := by
  simp [irq, h]

theorem hostIrqLines_of_irq {s : State} (h : irq s = true) : hostIrqLines s = [s.platform.irqRoute] := if_pos h

theorem hostIrqLines_of_not_irq {s : State} (h : irq s = false) : hostIrqLines s = [] := by
  simp [hostIrqLines, h]

/-- An engine event that ends a command sets DONE (R143, R192, R262) and leaves IRQ_EN as it was (R29). -/
theorem irq_of_engine_end {s t : State} {rest : List Event} (h : step s = .next t) (hs : s.fsm ≠ .idle)
    (ht : t.fsm = .idle) (hi : s.inputs = .engine :: rest) : irq t = s.irqEn := by
  have hend := (step_effect h).leaves_busy hs (by rw [ht]; exact hs.symm)
  have hdone : t.done = true := by
    rcases hend with ⟨-, hr | ⟨-, hd, -⟩⟩
    · simp [hi] at hr
    · exact hd
  have hen : t.irqEn = s.irqEn := by
    by_contra hne
    rcases (step_effect h).operand_write (by simp [hne]) with hr | ⟨off, v, -, hw⟩
    · simp [hi] at hr
    · simp [hi, writeEvent] at hw
  rw [irq_of_done hdone, hen]

theorem step_ctrl_write {s : State} {v : Word} {rest : List Event} (h : s.inputs = writeEvent 0x10 v :: rest) :
    step s = .next (flagsCtrlWrite v (writeReplied s)) := by
  rw [step_write h rfl]
  rfl

theorem irq_flagsCtrlWrite (v : Word) (s : State) : irq (flagsCtrlWrite v s) = (s.done && v.getLsbD 0) := rfl

theorem irq_flagsStatusWrite {v : Word} (s : State) (h : v.getLsbD 1 = true) : irq (flagsStatusWrite v s) = false :=
  irq_of_not_done (by simp [flagsStatusWrite, h])

theorem irq_resetEvent (s : State) : irq (resetEvent s) = false := rfl

/-- An acceptance clears DONE, whichever the command (R234). -/
theorem exec_idle_done {i : Instr} {s t : State} (hf : s.fsm = .idle) (h : exec i s = .next t) : t.done = false := by
  cases i with
  | mul =>
    rw [exec_mul_idle hf] at h
    cases h
    rfl
  | nttLayer =>
    rw [exec_nttLayer_idle hf] at h
    cases h
    rfl

theorem irq_of_accept {i : Instr} {s t : State} {rest : List Event} (h : step s = .next t) (hf : s.fsm = .idle)
    (hi : s.inputs = cmdEvent (encode i) :: rest) : irq t = false := by
  have hx := (step_cmd_ok hi hf (decode_encode i)).symm.trans h
  exact irq_of_not_done (exec_idle_done (s := { s with inputs := rest, reply := .written }) hf hx)

end Sys2Proof.Machine

/-- Settles O51: the next event, or what the machine does by itself, is an engine step, a reset, a transaction or a
memory access, each of which goes on. -/
theorem everyStepGoesOn : Obligations.EveryStepGoesOn := by
  unfold Obligations.EveryStepGoesOn
  exact Sys2Proof.Machine.step_next

/-- Settles O16: `irq` is DONE and IRQ_EN, which each of the listed steps leaves as it says; the line is the
platform's, which no step changes. -/
theorem irqRisesAndFalls : Obligations.IrqRisesAndFalls := by
  unfold Obligations.IrqRisesAndFalls
  open Sys2Proof.Machine in
  intro s t rest h
  refine ⟨fun hs ht hi => irq_of_engine_end h hs ht hi, fun hi => ?_, fun hi => ?_, fun hi => ?_, fun hi => ?_,
    fun hf hi => ?_, fun hirq => ?_, hostIrqLines_of_not_irq⟩
  · rw [step_ctrl_write hi] at h
    cases h
    exact (irq_flagsCtrlWrite 1 _).trans (Bool.and_true s.done)
  · rw [step_ctrl_write hi] at h
    cases h
    exact (irq_flagsCtrlWrite 0 _).trans (Bool.and_false s.done)
  · rw [step_status_write hi] at h
    cases h
    exact irq_flagsStatusWrite _ rfl
  · rw [step_cons hi] at h
    cases h
    exact irq_resetEvent _
  · rcases hi with hi | hi
    · exact irq_of_accept (i := .mul) h hf hi
    · exact irq_of_accept (i := .nttLayer) h hf hi
  · rw [hostIrqLines_of_irq hirq, (step_platform_inputs h).1]
end

section
/-! The bus-error abort of a layer that is not raced (R262, R266): at which of a butterfly's five accesses it comes, and
the state it leaves. -/

namespace Sys2Proof.Machine

open Sys2Proof.Config (any256)
open Sys2Proof.Statements

/-! ### Element accesses in a row (R186) -/

/-- Element accesses from the same state, one after another, before `go`. -/
def accessesThen (l : List (AccessKind × Word)) (s go : State) : State :=
  l.foldr (fun x next => elemAccess x.1 x.2 s next) go

theorem accessesThen_completes {l : List (AccessKind × Word)} {s : State} (go : State)
    (h : allComplete s.platform l) : accessesThen l s go = go := by
  induction l with
  | nil => rfl
  | cons x l ih =>
    obtain ⟨hx, hl⟩ := List.forall_mem_cons.mp h
    exact (elemAccess_completes _ hx).trans (ih hl)

/-- The first access that gets an error aborts the command, whatever was to follow (R262). -/
theorem accessesThen_error {l : List (AccessKind × Word)} {s : State} (go : State) {k : Nat} {x : AccessKind × Word}
    (hx : l[k]? = some x) (hc : allComplete s.platform (l.take k)) (he : s.platform.response x.1 x.2 = .error) :
    accessesThen l s go = raiseBusError x.2 (failedAccess x.1 x.2 s) := by
  induction l generalizing k with
  | nil => simp at hx
  | cons y l ih =>
    cases k with
    | zero =>
      obtain rfl : y = x := by simpa using hx
      exact elemAccess_error _ he
    | succ k =>
      obtain ⟨hy, hc⟩ := List.forall_mem_cons.mp hc
      exact (elemAccess_completes _ hy).trans (ih hx hc)

/-- The three reads of a butterfly come before its writes, each from the state the butterfly starts in. -/
theorem bflyStep_eq_reads (s : State) :
    bflyStep s =
      accessesThen ((accesses s).take 3) s
        (elemAccess .write (out1Addr s.lat s.o) (takeDraws (bflyTaken s) s)
          (elemAccess .write (out2Addr s.lat s.o) (bflyOneWritten s) (bflyDone (bflyBothWritten s)))) := rfl

/-! ### The state an abort leaves (R262) -/

theorem raiseBusError_of_not_raced {s : State} (hr : s.raced = false) (a : Word) :
    raiseBusError a s = aborted s a s.mem s.draws := by
  rw [raiseBusError, settleRace_of_not_raced hr]
  rfl

/-- A failing write leaves the next free value in the bytes admitted, whatever the accesses before it left. -/
theorem raiseBusError_failed_write {s : State} (hr : s.raced = false) (a : Word) (m : Memory) (d : Nat) :
    raiseBusError a (failedAccess .write a { s with mem := m, draws := d }) =
      aborted s a (m.writeBytes (s.platform.admitsByte .write) a (any256 d).toNat 32) (d + 1) :=
  raiseBusError_of_not_raced (s := failedAccess .write a { s with mem := m, draws := d }) hr a

theorem takeDraws_bflyTaken (s : State) :
    takeDraws (bflyTaken s) s =
      { s with draws := s.draws + outDraws (s.mem.elem (in1Addr s.lat s.o)) (s.mem.elem (twAddr s.lat s.o)) } := by
  rw [bflyTaken, bflyDraws_eq_outDraws]
  rfl

/-- out1 is stored and the values the butterfly draws are counted. -/
theorem bflyOneWritten_eq (s : State) :
    bflyOneWritten s =
      { s with
        mem := s.mem.setElem (out1Addr s.lat s.o)
          (outs (s.mem.elem (in1Addr s.lat s.o)) (s.mem.elem (in2Addr s.lat s.o)) (s.mem.elem (twAddr s.lat s.o))
            s.draws).1
        draws := s.draws + outDraws (s.mem.elem (in1Addr s.lat s.o)) (s.mem.elem (twAddr s.lat s.o)) } := by
  rw [bflyOneWritten, bflyTaken, bflyResults, bflyDraws_eq_outDraws, bflyOutputs_eq_outs]
  simp only [takeDraws, storeElem, bflyInputs]

/-! ### Which access aborts (R262, R266) -/

theorem bflyStep_read_error {s : State} (hr : s.raced = false) {k : Nat} {x : AccessKind × Word} (hk : k < 3)
    (hx : (accesses s)[k]? = some x) (hc : allComplete s.platform ((accesses s).take k))
    (he : s.platform.response x.1 x.2 = .error) : bflyStep s = aborted s x.2 s.mem s.draws := by
  have hx3 : ((accesses s).take 3)[k]? = some x := by rw [List.getElem?_take_of_lt hk, hx]
  have hc3 : allComplete s.platform (((accesses s).take 3).take k) := by
    rwa [List.take_take, Nat.min_eq_left hk.le]
  have hread : x.1 = .read := by
    have hall : ∀ y ∈ (accesses s).take 3, y.1 = .read := by simp [accesses]
    exact hall x (List.mem_of_getElem? hx3)
  rw [bflyStep_eq_reads, accessesThen_error _ hx3 hc3 he, hread]
  exact raiseBusError_of_not_raced hr x.2

theorem bflyStep_write1_error {s : State} (hc : allComplete s.platform ((accesses s).take 3))
    (he : s.platform.response .write (out1Addr s.lat s.o) = .error) :
    bflyStep s =
      raiseBusError (out1Addr s.lat s.o) (failedAccess .write (out1Addr s.lat s.o) (takeDraws (bflyTaken s) s)) := by
  rw [bflyStep_eq_reads, accessesThen_completes _ hc, elemAccess_error _ (by simpa using he)]

theorem bflyStep_write2_error {s : State} (hc : allComplete s.platform ((accesses s).take 4))
    (he : s.platform.response .write (out2Addr s.lat s.o) = .error) :
    bflyStep s =
      raiseBusError (out2Addr s.lat s.o) (failedAccess .write (out2Addr s.lat s.o) (bflyOneWritten s)) := by
  obtain ⟨hreads, hwrite⟩ : allComplete s.platform ((accesses s).take 3) ∧
      s.platform.response .write (out1Addr s.lat s.o) = .completes := by
    simp only [allComplete, accesses, List.take_succ_cons, List.take_zero, List.forall_mem_cons] at hc ⊢
    obtain ⟨h1, h2, h3, h4, hnil⟩ := hc
    exact ⟨⟨h1, h2, h3, hnil⟩, h4⟩
  rw [bflyStep_eq_reads, accessesThen_completes _ hreads, elemAccess_completes _ (by simpa using hwrite),
    elemAccess_error _ (by simpa using he)]

end Sys2Proof.Machine

/-- Settles O42: the first access in error among the three reads, at out1 or at out2, and what it leaves. -/
theorem busErrorAborts : Obligations.BusErrorAborts := by
  unfold Obligations.BusErrorAborts
  open Sys2Proof.Machine in
  intro s hb hr P A d1 d2 in1 tw d m1
  obtain ⟨hf, hh, ho⟩ := hb
  rw [exec_nttLayer_busy hf, nttStep_butterfly hh ho]
  refine ⟨fun k x hk hx hc he => ?_, fun hc he => ?_, fun hc he => ?_, fun b hadm m a v => ?_⟩
  · rw [bflyStep_read_error hr hk hx hc he]
  · rw [bflyStep_write1_error hc he, takeDraws_bflyTaken, raiseBusError_failed_write hr]
  · rw [bflyStep_write2_error hc he, bflyOneWritten_eq, raiseBusError_failed_write hr]
  · exact Memory.read_writeBytes_unselected _ 32 m a v b hadm
end

section
/-! The reset event: what the block holds after it (R291), and which bytes of data memory it may change (R292, R293,
R85). -/

namespace Sys2Proof.Machine

open Sys2Proof.Statements (freeByte)

theorem step_reset {s : State} {rest : List Event} (h : s.inputs = .reset :: rest) :
    step s = .next (resetEvent (takeInput rest s)) := step_cons h

/-! ### The register window after a reset (R291) -/

theorem Limbs.get_zero (i : Fin 4) : Limbs.zero.get i = 0 := by
  match i with
  | 0 | 1 | 2 | 3 => rfl

/-- Every register of the window has the value 0 after a reset. -/
theorem readReg_resetEvent (s : State) (r : Reg) : readReg (resetEvent s) r = 0 := by
  cases r with
  | status => exact (by decide : statusWord State.reset = 0)
  | ctrl => exact (by decide : ctrlWord State.reset = 0)
  | x i | y i | res i => exact Limbs.get_zero i
  | _ => rfl

theorem readOffset_resetEvent (s : State) (off : BitVec 8) : readOffset (resetEvent s) off = 0 := by
  rw [readOffset]
  cases regAt off with
  | none => rfl
  | some r => exact readReg_resetEvent s r

/-! ### The destinations a reset loses (R292, R85) -/

/-- The butterflies whose destinations a reset of a running layer leaves free: the one in flight (R292), then, of a
raced layer, every one the layer visits (R85). -/
def resetLost (s : State) : List Nat :=
  (if s.o < s.n.toNat then [s.o] else []) ++ (if s.raced then offsets s.lat s.n else [])

theorem resetLost_of_raced {s : State} (h : s.raced = true) :
    resetLost s = (if s.o < s.n.toNat then [s.o] else []) ++ offsets s.lat s.n := by
  rw [resetLost, if_pos h]

theorem resetLost_butterfly {s : State} (h : s.raced = false) (ho : s.o < s.n.toNat) : resetLost s = [s.o] := by
  simp [resetLost, h, ho]

theorem resetLost_past_end {s : State} (h : s.raced = false) (ho : s.n.toNat ≤ s.o) : resetLost s = [] := by
  simp [resetLost, h, Nat.not_lt.mpr ho]

theorem mem_resetLost {s : State} {o : Nat} :
    o ∈ resetLost s ↔ (s.o < s.n.toNat ∧ o = s.o) ∨ (s.raced = true ∧ o ∈ offsets s.lat s.n) := by
  rw [resetLost, List.mem_append]
  split <;> split <;> simp_all

theorem scramble_append (l : NttParams) (os os' : List Nat) (m : Memory) (k : Nat) :
    scramble l (os ++ os') m k = scramble l os' (scramble l os m k).1 (scramble l os m k).2 := by
  induction os generalizing m k with
  | nil => rfl
  | cons o os ih => exact ih _ _

theorem resetInFlight_eq_scramble (s : State) :
    resetInFlight s =
      { s with
        mem := (scramble s.lat (if s.o < s.n.toNat then [s.o] else []) s.mem s.draws).1
        draws := (scramble s.lat (if s.o < s.n.toNat then [s.o] else []) s.mem s.draws).2 } := by
  unfold resetInFlight
  split <;> rfl

theorem settleRace_mem_draws (s : State) :
    ((settleRace s).mem, (settleRace s).draws) =
      scramble s.lat (if s.raced then offsets s.lat s.n else []) s.mem s.draws := by
  unfold settleRace
  split <;> rfl

/-- What a reset of a running layer leaves in memory: free values at the destinations it loses, and nothing else. -/
theorem resetEvent_mem_draws {s : State} (h : s.fsm = .nttBusy) :
    ((resetEvent s).mem, (resetEvent s).draws) = scramble s.lat (resetLost s) s.mem s.draws := by
  rw [resetEvent_mem, resetEvent_draws, resetMemory, if_pos h, settleRace_mem_draws, resetInFlight_eq_scramble,
    resetLost, scramble_append]

theorem resetEvent_mem_of_no_layer {s : State} (h : s.fsm ≠ .nttBusy) : (resetEvent s).mem = s.mem := by
  rw [resetEvent_mem, resetMemory_of_no_layer h]

/-- The completion step of a layer that is not raced leaves nothing for a reset to lose. -/
theorem resetEvent_mem_past_end {s : State} (hf : s.fsm = .nttBusy) (hr : s.raced = false) (ho : s.n.toNat ≤ s.o) :
    (resetEvent s).mem = s.mem := by
  have h := resetEvent_mem_draws hf
  rw [resetLost_past_end hr ho] at h
  exact congrArg Prod.fst h

/-- A byte that no lost destination holds keeps its value. -/
theorem resetEvent_read_outside {s : State} (hf : s.fsm = .nttBusy) {b : Word}
    (h : ∀ o ∈ resetLost s, inElem (out1Addr s.lat o) b = false ∧ inElem (out2Addr s.lat o) b = false) :
    (resetEvent s).mem.read b.toNat = s.mem.read b.toNat := by
  have hmem := congrArg (fun x => Memory.read x.1 b.toNat) (resetEvent_mem_draws hf)
  exact hmem.trans (scramble_read_outside s.lat (resetLost s) s.mem s.draws b h)

/-- A byte that a lost destination holds is a free value drawn by the reset. -/
theorem resetEvent_freeByte {s : State} (hf : s.fsm = .nttBusy) (hm : s.mem.wf = true) {b : Word} {o : Nat}
    (ho : o ∈ resetLost s) (h : inElem (out1Addr s.lat o) b = true ∨ inElem (out2Addr s.lat o) b = true) :
    freeByte (resetEvent s).mem s.draws (resetEvent s).draws b := by
  have hfree : freeByte (scramble s.lat (resetLost s) s.mem s.draws).1 s.draws
      (scramble s.lat (resetLost s) s.mem s.draws).2 b :=
    scramble_read_inside s.lat (resetLost s) s.draws hm b ho h
  rwa [← resetEvent_mem_draws hf] at hfree

/-! ### Against the write footprint (R190) -/

theorem inWriteFootprint_iff {l : NttParams} {n b : Word} :
    inWriteFootprint l n b = true ↔
      ∃ o ∈ offsets l n, inElem (out1Addr l o) b = true ∨ inElem (out2Addr l o) b = true := by
  simp [inWriteFootprint]

/-- Where the butterfly in flight is one of the walk, a reset loses no byte outside the write footprint. -/
theorem resetEvent_read_outside_footprint {s : State} (hf : s.fsm = .nttBusy)
    (hwalk : s.o < s.n.toNat → s.o ∈ offsets s.lat s.n) {b : Word} (hb : inWriteFootprint s.lat s.n b = false) :
    (resetEvent s).mem.read b.toNat = s.mem.read b.toNat := by
  refine resetEvent_read_outside hf fun o ho => ?_
  have hvisited : o ∈ offsets s.lat s.n := by
    obtain ⟨hlt, rfl⟩ | ⟨-, ho⟩ := mem_resetLost.mp ho
    · exact hwalk hlt
    · exact ho
  have hnot : ¬(inElem (out1Addr s.lat o) b = true ∨ inElem (out2Addr s.lat o) b = true) := fun hin =>
    Bool.eq_false_iff.mp hb (inWriteFootprint_iff.mpr ⟨o, hvisited, hin⟩)
  simpa using hnot

end Sys2Proof.Machine

/-- Settles O17: the state after a reset is `State.reset` in all but memory and host side, and an acceptance writes
the hidden fields before anything reads them. -/
theorem resetEventValues : Obligations.ResetEventValues := by
  unfold Obligations.ResetEventValues
  open Sys2Proof.Machine in
  intro s rest hi
  refine ⟨_, step_reset hi, rfl, irq_resetEvent _, readOffset_resetEvent _, rfl, fun lx ly => ?_, fun lat o n => ?_⟩
  · rw [exec_mul_idle rfl, exec_mul_idle rfl]
    rfl
  · rw [exec_nttLayer_idle rfl, exec_nttLayer_idle rfl]
    rfl

/-- Settles O18: every clause reads off the list of destinations the reset loses. Taking the event off the list changes
no field that the clauses speak of. -/
theorem resetKeepsMemory : Obligations.ResetKeepsMemory := by
  unfold Obligations.ResetKeepsMemory
  open Sys2Proof.Machine in
  intro s rest hi
  refine ⟨_, step_reset hi, fun hf => ?_, fun hf hr ho => ?_, fun hf hr ho => ?_, fun hf hr => ?_,
    fun hf hr b h1 h2 => ?_, fun hf hs b hb => ?_, fun hf hm ho b hb => ?_, fun hf hm hr b hb => ?_⟩
  · exact resetEvent_mem_of_no_layer (s := takeInput rest s) hf
  · exact resetEvent_mem_past_end (s := takeInput rest s) hf hr ho
  · rw [← scramble_eq_freeDests, ← resetLost_butterfly hr ho]
    exact resetEvent_mem_draws (s := takeInput rest s) hf
  · rw [← scramble_eq_freeDests, ← resetLost_of_raced hr]
    exact resetEvent_mem_draws (s := takeInput rest s) hf
  · refine resetEvent_read_outside (s := takeInput rest s) hf fun o ho => ?_
    obtain ⟨-, rfl⟩ | ⟨hraced, -⟩ := mem_resetLost.mp ho
    · exact ⟨h1, h2⟩
    · exact absurd hraced (Bool.eq_false_iff.mp hr)
  · obtain ⟨-, -, hwalk, -⟩ := hs.layer hf
    exact resetEvent_read_outside_footprint (s := takeInput rest s) hf hwalk hb
  · exact resetEvent_freeByte (s := takeInput rest s) hf hm (mem_resetLost.mpr (.inl ⟨ho, rfl⟩)) hb
  · obtain ⟨o, ho, hin⟩ := inWriteFootprint_iff.mp hb
    exact resetEvent_freeByte (s := takeInput rest s) hf hm (mem_resetLost.mpr (.inr ⟨hr, ho⟩)) hin
end
